-- ==== Sys2Proof/Word.lean ====
section
/-! DEFINITION. The word types of the TW-48 and their plainest arithmetic (spec 00 R4, 01 R12, R14). -/

namespace Sys2Proof

/-- A 64-bit scalar register, slot word or CSR (R12, R44). -/
abbrev Word := BitVec 64

/-- A 512-bit vector register (R12). -/
abbrev Vec := BitVec 512

/-- One byte of a memory (R4). -/
abbrev Byte := BitVec 8

/-- A 32-bit code address (R36). -/
abbrev CodeAddr := BitVec 32

/-- `n` bits of the number `w`, starting at bit `lo` (R4). -/
def fld (w lo n : Nat) : Nat := w / 2 ^ lo % 2 ^ n

/-- A Boolean as one bit. -/
def bitOf (b : Bool) : Nat := if b then 1 else 0

end Sys2Proof
end

