-- ==== Sys2Proof/Syntax.lean ====
section
/-! DEFINITION. The operations and steps of the TW-48: one constructor of `Instr` for every row of the opcode table.
Slot instructions carry the fields of their formats (02 R50-R61); commands carry their words' fields (09 R194); the
other steps carry what names them (95). -/

namespace Sys2Proof

/-- The five slots of a bundle, in bundle order (R12). -/
inductive Slot where
  | k | m | v | w | x
  deriving DecidableEq, Repr

/-- The FILE field of loads and stores (R51). -/
inductive File where
  | k | m | v | w
  deriving DecidableEq, Repr

/-- The DFILE field of XCOPY (R55). -/
inductive DFile where
  | k | m | v | w | x | p
  deriving DecidableEq, Repr

/-- The two vector files (R12). -/
inductive VFile where
  | v | w
  deriving DecidableEq, Repr

/-- TYPE, integer operations (R53). -/
inductive IType where
  | i32 | i16 | i8 | n32 | n16 | n8
  deriving DecidableEq, Repr

/-- TYPE, float operations (R53). -/
inductive FType where
  | f32 | bf16 | f16
  deriving DecidableEq, Repr

/-- The RM field (R53). -/
inductive RMode where
  | rne | rz | rd | ru | rs | dyn
  deriving DecidableEq, Repr

/-- The format codes of Table 2.6 that are not block formats (R53, R151). -/
inductive Fmt where
  | f32 | bf16 | f16 | e4m3 | e5m2 | i32 | i16 | i8 | n32 | n16 | n8
  deriving DecidableEq, Repr

/-- The VIEW field of LDV (R121). -/
inductive View where
  | raw | dec | bf24 | blo | bhi
  deriving DecidableEq, Repr

/-- The memory fields of formats ML and MS (R51). -/
structure MemOp where
  base : BitVec 5
  file : File
  reg  : BitVec 10
  off  : BitVec 24
  post : Bool
  deriving DecidableEq, Repr

/-- The fields of the quay forms (R318, Table 2.7). -/
structure QuayOp where
  q     : BitVec 2
  xd    : BitVec 4
  xa    : BitVec 4
  xb    : BitVec 4
  tp    : Bool
  tw    : Bool
  tid   : BitVec 2
  bound : BitVec 20
  deriving DecidableEq, Repr

/-- The SCFG field names, FIELD 0-7 (R294). -/
abbrev StreamField := BitVec 3

/-- One hop of a path: the tile left, the direction (0 east, 1 west, 2 south, 3 north) and its latency (R166, R209). -/
structure Hop where
  tile : Nat
  dir  : Nat
  lat  : Nat
  deriving DecidableEq, Repr

/-- What a flit carries (R212, R218). -/
inductive FlitKind where
  | fragment | up | down
  deriving DecidableEq, Repr

/-- A 128-byte flit under way (R212, R213, R218): the tile and channel that sent it, the fragment's issue cycle, the flit's
number, the address its bytes come from and the bytes once read, the hops before it, the input port that holds it (4 at its
sender; 8 more in the queue of a moving tile's old router) and whether it waits there, how often it has contended this cycle, where it
goes and to which entry and address, its phase, the MAPVER of its issue, and the cycle at which R213 or R220 has it written. -/
structure Flit where
  kind  : FlitKind
  src   : Nat
  chan  : Nat
  issue : Nat
  k     : Nat
  addr  : Nat
  data  : Option (BitVec 1024)
  hops  : List Hop
  port  : Nat
  waits : Bool
  pass  : Nat
  dest  : Nat
  entry : Nat
  daddr : Nat
  phase : Nat
  mapver : Nat
  sched : Nat
  deriving DecidableEq, Repr

/-- A trap: its cause, its three details and whether it is imprecise (R348, R349). -/
structure TrapInfo where
  cause : Nat
  t0 : Nat
  t1 : Nat
  t2 : Nat
  imp : Bool
  deriving DecidableEq, Repr

/-- A level of the loop stack (R26). -/
structure Loop where
  start : CodeAddr
  count : BitVec 32
  index : BitVec 32
  deriving DecidableEq, Repr

/-- How a bundle with LE closes a pass (R27). -/
inductive LoopOutcome where
  | none | body (rt : Bool) | drain | exit
  deriving DecidableEq, Repr

/-- What a gang member does at its skewed cycle: the bundle the lead issued, or the trap the lead decided
(R168, R169, R352). A lead is told that the bound of a member's wait comes at its part of this cycle. -/
inductive Follow where
  | run (addr : CodeAddr) (kGuard : Bool) (loops : List Loop) (out : LoopOutcome) (link : CodeAddr) (taken : Option CodeAddr)
  | trap (addr : CodeAddr) (info : TrapInfo) (entry : Nat)
  | bound
  deriving DecidableEq, Repr

/-- An optical flit under way (R399, R400, R409): the lane and entry it comes to, its place in the receive range, its data,
its sender's TOPVER and the cycle at which it is scheduled to be written. -/
structure OptFlit where
  lane  : Nat
  entry : Nat
  index : Nat
  data  : BitVec 1024
  topv  : BitVec 16
  sched : Nat
  deriving DecidableEq, Repr

/-- A step of a stream's beat: the sampling of its index words, the read of its source, or the write of its bytes
(R297, R298). -/
inductive BeatStep where
  | index | read | write (bytes : List (Nat × Byte))
  deriving DecidableEq, Repr

/-- The operands an array step has sampled: the rows of A and the columns of B; an element that is none is outside the
valid edge (R307). -/
structure StepOperands where
  rows : List (List (Option Nat))
  cols : List (List (Option Nat))
  deriving DecidableEq, Repr

/-- The operations and steps of the opcode table. The slot forms come first: Lean's runtime cannot build a constructor
with fields past the 245th, so compiled code keeps the forms that every slot has, the commands and the machine's steps
in the types `Body`, `Command` and `Event` below, each of which names its instruction. -/
inductive Instr where
  -- K slot (02 Table 2.9)
  | add (d a b : BitVec 5)
  | sub (d a b : BitVec 5)
  | and (d a b : BitVec 5)
  | or (d a b : BitVec 5)
  | xor (d a b : BitVec 5)
  | andn (d a b : BitVec 5)
  | shl (d a b : BitVec 5)
  | shr (d a b : BitVec 5)
  | sra (d a b : BitVec 5)
  | min (d a b : BitVec 5)
  | max (d a b : BitVec 5)
  | minn (d a b : BitVec 5)
  | maxn (d a b : BitVec 5)
  | mul (d a b : BitVec 5)
  | mulh (d a b : BitVec 5)
  | mulhn (d a b : BitVec 5)
  | div (d a b : BitVec 5)
  | divn (d a b : BitVec 5)
  | rem (d a b : BitVec 5)
  | remn (d a b : BitVec 5)
  | clz (d a : BitVec 5)
  | ctz (d a : BitVec 5)
  | popc (d a : BitVec 5)
  | sel (d a b : BitVec 5) (ps : BitVec 4)
  | addi (d a : BitVec 5) (imm : BitVec 32)
  | andi (d a : BitVec 5) (imm : BitVec 32)
  | ori (d a : BitVec 5) (imm : BitVec 32)
  | xori (d a : BitVec 5) (imm : BitVec 32)
  | shli (d a : BitVec 5) (imm : BitVec 32)
  | shri (d a : BitVec 5) (imm : BitVec 32)
  | srai (d a : BitVec 5) (imm : BitVec 32)
  | movi (d : BitVec 5) (imm : BitVec 32)
  | muli (d a : BitVec 5) (imm : BitVec 32)
  | cmpEq (pd : BitVec 4) (a b : BitVec 5)
  | cmpNe (pd : BitVec 4) (a b : BitVec 5)
  | cmpLt (pd : BitVec 4) (a b : BitVec 5)
  | cmpLe (pd : BitVec 4) (a b : BitVec 5)
  | cmpLtn (pd : BitVec 4) (a b : BitVec 5)
  | cmpLen (pd : BitVec 4) (a b : BitVec 5)
  | cmpiEq (pd : BitVec 4) (a : BitVec 5) (imm : BitVec 24)
  | cmpiNe (pd : BitVec 4) (a : BitVec 5) (imm : BitVec 24)
  | cmpiLt (pd : BitVec 4) (a : BitVec 5) (imm : BitVec 24)
  | cmpiLe (pd : BitVec 4) (a : BitVec 5) (imm : BitVec 24)
  | cmpiLtn (pd : BitVec 4) (a : BitVec 5) (imm : BitVec 24)
  | cmpiLen (pd : BitVec 4) (a : BitVec 5) (imm : BitVec 24)
  | pand (pd pa pb : BitVec 4)
  | por (pd pa pb : BitVec 4)
  | pxor (pd pa pb : BitVec 4)
  | pandn (pd pa pb : BitVec 4)
  | pset (a : BitVec 5)
  | pget (d : BitVec 5)
  | br (off : BitVec 24)
  | jmp (a : BitVec 5)
  | call (off : BitVec 24)
  | ret (a : BitVec 5)
  | loop (a : BitVec 5) (off : BitVec 24)
  | loopi (off : BitVec 24) (n : BitVec 18)
  | lexit (off : BitVec 24)
  | lidx (d : BitVec 5) (lvl : BitVec 4)
  | rotset (imm : BitVec 32)
  | tick (d : BitVec 5)
  | scyc (d : BitVec 5)
  | phase (d : BitVec 5)
  | lkstat (d : BitVec 5)
  | sleept (a : BitVec 5)
  | lock (round win : Bool) (bound : BitVec 18)
  | lockAnd (p : BitVec 4) (round win : Bool) (bound : BitVec 18)
  | lockOr (p : BitVec 4) (round win : Bool) (bound : BitVec 18)
  | endProg (bound : BitVec 18)
  | csrr (d : BitVec 5) (n : BitVec 12)
  | csrw (d a : BitVec 5) (n : BitVec 12) (imm : BitVec 16)
  | csrs (d a : BitVec 5) (n : BitVec 12) (imm : BitVec 16)
  | csrc (d a : BitVec 5) (n : BitVec 12) (imm : BitVec 16)
  -- M slot (02 Table 2.10)
  | aadd (d a b : BitVec 5)
  | asub (d a b : BitVec 5)
  | aaddi (d a : BitVec 5) (imm : BitVec 32)
  | ashli (d a : BitVec 5) (imm : BitVec 32)
  | amuli (d a : BitVec 5) (imm : BitVec 32)
  | amovi (d : BitVec 5) (imm : BitVec 32)
  | ldb (m : MemOp)
  | ldbn (m : MemOp)
  | ldh (m : MemOp)
  | ldhn (m : MemOp)
  | ldw (m : MemOp)
  | ldwn (m : MemOp)
  | ldd (m : MemOp)
  | ldv (m : MemOp) (view : View)
  | ldvs (m : MemOp) (view : View) (stride : BitVec 5)
  | ldacc (m : MemOp)
  | stb (m : MemOp)
  | sth (m : MemOp)
  | stw (m : MemOp)
  | std (m : MemOp)
  | stv (m : MemOp)
  | stvs (m : MemOp) (stride : BitVec 5)
  | stvm (m : MemOp) (mask : BitVec 5)
  | spill (file : VFile) (reg : BitVec 10)
  | fill (file : VFile) (reg : BitVec 10)
  -- V and W slots (02 Table 2.11)
  | vadd (d a b : BitVec 10) (t : IType) (sat : Bool)
  | vsub (d a b : BitVec 10) (t : IType) (sat : Bool)
  | vmul (d a b : BitVec 10) (t : IType) (sat : Bool)
  | vmulh (d a b : BitVec 10) (t : IType) (sat : Bool)
  | vmin (d a b : BitVec 10) (t : IType) (sat : Bool)
  | vmax (d a b : BitVec 10) (t : IType) (sat : Bool)
  | vand (d a b : BitVec 10) (t : IType) (sat : Bool)
  | vor (d a b : BitVec 10) (t : IType) (sat : Bool)
  | vxor (d a b : BitVec 10) (t : IType) (sat : Bool)
  | vshl (d a b : BitVec 10) (t : IType) (sat : Bool)
  | vshr (d a b : BitVec 10) (t : IType) (sat : Bool)
  | vsra (d a b : BitVec 10) (t : IType) (sat : Bool)
  | vabs (d a : BitVec 10) (t : IType) (sat : Bool)
  | vcmpEq (d a b : BitVec 10) (t : IType)
  | vcmpNe (d a b : BitVec 10) (t : IType)
  | vcmpLt (d a b : BitVec 10) (t : IType)
  | vcmpLe (d a b : BitVec 10) (t : IType)
  | vcmpGt (d a b : BitVec 10) (t : IType)
  | vcmpGe (d a b : BitVec 10) (t : IType)
  | vcmpUo (d a b : BitVec 10) (t : IType)
  | vcmpOrd (d a b : BitVec 10) (t : IType)
  | vsel (d a b c : BitVec 10) (t : IType)
  | vdot4Ss (d a b c : BitVec 10) (sat : Bool)
  | vdot4Su (d a b c : BitVec 10) (sat : Bool)
  | vdot4Us (d a b c : BitVec 10) (sat : Bool)
  | vdot4Uu (d a b c : BitVec 10) (sat : Bool)
  | vaddi (d a : BitVec 10) (imm : BitVec 23) (t : IType)
  | vshli (d a : BitVec 10) (imm : BitVec 23) (t : IType)
  | vshri (d a : BitVec 10) (imm : BitVec 23) (t : IType)
  | vsrai (d a : BitVec 10) (imm : BitVec 23) (t : IType)
  | vmovi (d : BitVec 10) (imm : BitVec 23) (t : IType)
  | vfadd (d a b : BitVec 10) (t : FType) (rm : RMode)
  | vfsub (d a b : BitVec 10) (t : FType) (rm : RMode)
  | vfmul (d a b : BitVec 10) (t : FType) (rm : RMode)
  | vfma (d a b c : BitVec 10) (t : FType) (rm : RMode)
  | vfms (d a b c : BitVec 10) (t : FType) (rm : RMode)
  | vfnma (d a b c : BitVec 10) (t : FType) (rm : RMode)
  | vfmin (d a b : BitVec 10) (t : FType)
  | vfmax (d a b : BitVec 10) (t : FType)
  | vfcmpEq (d a b : BitVec 10) (t : FType)
  | vfcmpNe (d a b : BitVec 10) (t : FType)
  | vfcmpLt (d a b : BitVec 10) (t : FType)
  | vfcmpLe (d a b : BitVec 10) (t : FType)
  | vfcmpGt (d a b : BitVec 10) (t : FType)
  | vfcmpGe (d a b : BitVec 10) (t : FType)
  | vfcmpUo (d a b : BitVec 10) (t : FType)
  | vfcmpOrd (d a b : BitVec 10) (t : FType)
  | vfsgnCopy (d a b : BitVec 10) (t : FType)
  | vfsgnNcopy (d a b : BitVec 10) (t : FType)
  | vfsgnXor (d a b : BitVec 10) (t : FType)
  | vfsgnAbs (d a : BitVec 10) (t : FType)
  | vfsgnNeg (d a : BitVec 10) (t : FType)
  | vfrcp (d a : BitVec 10) (t : FType)
  | vfrsq (d a : BitVec 10) (t : FType)
  | vfexp2 (d a : BitVec 10) (t : FType)
  | vflog2 (d a : BitVec 10) (t : FType)
  | vfsqrt (d a : BitVec 10) (t : FType) (rm : RMode)
  | vfdiv (d a b : BitVec 10) (t : FType) (rm : RMode)
  | vfactTanh (d a : BitVec 10) (t : FType)
  | vfactSigm (d a : BitVec 10) (t : FType)
  | vfactGelu (d a : BitVec 10) (t : FType)
  | vfactSilu (d a : BitVec 10) (t : FType)
  | vfcls (d a : BitVec 10) (t : FType)
  | vcvt (d a : BitVec 10) (dfmt sfmt : Fmt) (rm : RMode) (sat : Bool)
  | vqblkB4 (d a b : BitVec 10) (rm : RMode)
  | vqblkB10 (d a b : BitVec 10) (rm : RMode)
  | vdqblkB4Bf24 (d a : BitVec 10)
  | vdqblkB4Lo (d a : BitVec 10)
  | vdqblkB4Hi (d a : BitVec 10)
  | vdqblkB10Bf24 (d a : BitVec 10)
  | vdqblkB10Lo (d a : BitVec 10)
  | vdqblkB10Hi (d a : BitVec 10)
  | vfrnd (d a : BitVec 10) (t : FType) (rm : RMode)
  | vredAdd (d a : BitVec 10) (t : IType)
  | vredMax (d a : BitVec 10) (t : IType)
  | vredMin (d a : BitVec 10) (t : IType)
  | vredAnd (d a : BitVec 10) (t : IType)
  | vredOr (d a : BitVec 10) (t : IType)
  | vredXor (d a : BitVec 10) (t : IType)
  | vfredSum (d a : BitVec 10) (t : FType)
  | vfredMax (d a : BitVec 10) (t : FType)
  | vfredMin (d a : BitVec 10) (t : FType)
  | vperm (d a b : BitVec 10) (t : IType)
  | vbcast (d a : BitVec 10) (t : IType) (lane : BitVec 4)
  | vslide (d a b : BitVec 10) (t : IType) (n : BitVec 4)
  | vzipLo (d a b : BitVec 10) (t : IType)
  | vzipHi (d a b : BitVec 10) (t : IType)
  | vzipEven (d a b : BitVec 10) (t : IType)
  | vzipOdd (d a b : BitVec 10) (t : IType)
  | vrng (d : BitVec 10) (t : IType)
  | vmov (d a : BitVec 10)
  -- X slot (02 Table 2.12)
  | xmovi (d : BitVec 4) (imm : BitVec 32)
  | xaddi (d a : BitVec 4) (imm : BitVec 32)
  | send (ch : BitVec 8) (xs : BitVec 4) (bound : BitVec 20)
  | recv (ch : BitVec 8) (xs : BitVec 4) (bound : BitVec 20)
  | sendrAddF32 (ch : BitVec 8) (xs : BitVec 4) (bound : BitVec 20)
  | sendrAddBf16 (ch : BitVec 8) (xs : BitVec 4) (bound : BitVec 20)
  | sendrMaxF32 (ch : BitVec 8) (xs : BitVec 4) (bound : BitVec 20)
  | sendrMinF32 (ch : BitVec 8) (xs : BitVec 4) (bound : BitVec 20)
  | sendrAddI32 (ch : BitVec 8) (xs : BitVec 4) (bound : BitVec 20)
  | sendrXor (ch : BitVec 8) (xs : BitVec 4) (bound : BitVec 20)
  | recvr (ch : BitVec 8) (xs : BitVec 4) (bound : BitVec 20)
  | chst (ch : BitVec 8) (xs : BitVec 4)
  | pregSw (ph : BitVec 6)
  | pregSo (ph : BitVec 6)
  | pregWo (ph : BitVec 6)
  | pdrop (ph : BitVec 6)
  | psig (ph : BitVec 6)
  | pwait (ph : BitVec 6) (bound : BitVec 20)
  | scfg (st : BitVec 3) (field : StreamField) (xa : BitVec 4)
  | sbind (st : BitVec 3) (file : VFile) (reg : BitVec 10) (out : Bool)
  | sfree (st : BitVec 3)
  | swait (st : BitVec 3) (bound : BitVec 20)
  | sgo (st : BitVec 3)
  | omclaim (d : BitVec 4)
  | omrel (a : BitVec 4)
  | mstat (d : BitVec 4)
  | mcfg (level field : BitVec 4) (xa : BitVec 4)
  | mgo (lra lrb : Bool) (bound : BitVec 20)
  | mswap (bound : BitVec 20)
  | mwait (bound : BitVec 20)
  | mred (acc : BitVec 4) (bound : BitVec 20)
  | mclr (acc : BitVec 4)
  | qget (o : QuayOp)
  | qput (o : QuayOp)
  | qgath (o : QuayOp)
  | qatomAdd (o : QuayOp)
  | qatomMin (o : QuayOp)
  | qatomMax (o : QuayOp)
  | qatomMinn (o : QuayOp)
  | qatomMaxn (o : QuayOp)
  | qatomSwap (o : QuayOp)
  | qatomCas (o : QuayOp)
  | qatomAnd (o : QuayOp)
  | qatomOr (o : QuayOp)
  | qatomXor (o : QuayOp)
  | qmark (q : BitVec 2)
  | qtpop (q : BitVec 2) (xd : BitVec 4) (tid : BitVec 2) (bound : BitVec 20)
  | qwait (q : BitVec 2) (xd : BitVec 4) (bound : BitVec 20)
  | coll (xa xd : BitVec 4)
  | cwait (xd : BitVec 4) (bound : BitVec 20)
  | osend (och : BitVec 7) (xa : BitVec 4) (bound : BitVec 20)
  | orecv (och : BitVec 7) (xa : BitVec 4) (bound : BitVec 20)
  | ogap (gap : BitVec 20)
  | over (a : BitVec 4)
  -- K and M forms without fields, the software traps and ESC, and the forms of every slot (R55, R56)
  | tadj
  | tret
  | tretSkip
  | mark
  | trap (imm : BitVec 32)
  | brk (imm : BitVec 32)
  | esc (imm : BitVec 32)
  | xcopy (dfile : DFile) (dreg sreg : BitVec 10)
  | xcopyLane (dfile : DFile) (dreg sreg : BitVec 10) (lane : BitVec 4)
  | xcopyBcast (dfile : DFile) (dreg sreg : BitVec 10)
  | ext (payload : BitVec 51)
  -- Commands (09 Table 9.2)
  | launch (q : Nat) (sig : Bool) (tok : BitVec 4) (hdr : BitVec 48)
  | launchi (q : Nat) (sig : Bool) (tok : BitVec 4) (hdr size : BitVec 48)
  | loopc (q : Nat) (count : BitVec 32)
  | endc (q : Nat)
  | ifmem (q : Nat) (cond : BitVec 2) (n : BitVec 4) (addr : BitVec 48) (value : Word)
  | waittok (q : Nat) (tok : BitVec 8) (value : BitVec 32)
  | waittokRelease (q : Nat)
  | sigtok (q : Nat) (tok : BitVec 4) (addend : BitVec 32)
  | copyht (q : Nat) (sig : Bool) (tok : BitVec 4) (dir : Bool) (host : Word) (dev : BitVec 48) (len : Word)
  | mapPages (q : Nat) (va : BitVec 48) (entry count : Word)
  | inval (q : Nat) (va : BitVec 48) (count : Word)
  | invalDrainEnd (q : Nat)
  | manifest (q : Nat) (stored result : BitVec 48)
  | preempt (q : Nat) (pid : BitVec 16) (save : BitVec 48)
  | preemptSave (pid : Nat)
  | resume (q : Nat) (sig : Bool) (tok : BitVec 4) (hdr save : BitVec 48)
  | retire (q : Nat) (tile : BitVec 15)
  | selftest (q : Nat) (scope : BitVec 4) (tile : BitVec 15)
  | selftestComplete (q scope tile : Nat) (fail : Bool)
  -- Power-on, bring-up and ownership (01 R34, 22 R426-R431)
  | powerOn
  | bringUp (host : Nat) (failed : List Nat) (failedFields : List Nat)
  | attest (host : Nat) (addr : Nat)
  | ownershipClaim (host : Nat)
  | ownershipRenew (host : Nat)
  | ownershipHandover (host succ : Nat)
  | ownershipRelease (host : Nat)
  | leaseExpiry
  | registerWrite (host off : Nat) (value : Word)
  | cqtailWrite (host q : Nat) (value : Word)
  | cqctlWrite (host q : Nat) (value : Word)
  | evovfClear (host q : Nat)
  | cqevtWrite (host q : Nat) (value : Word)
  | handleOpen (host ctx slot : Nat)
  | handleFree (host ctx handle : Nat)
  | handleSlotFreed (ctx slot : Nat)
  -- Launch and start (09 R202-R206)
  | launchPlacement (q : Nat)
  | startEntry (core : Nat)
  | groupT0Agreement (gtag : Nat) (ticks : List Nat)
  | groupColaunchTimeout (gtag : Nat)
  | loopcIdleTimeout (q : Nat)
  | stragglerEvent (pid epoch : Nat)
  -- Issue (01 R21-R31, 18 R349)
  | bundleIssue (core gen : Nat) (follow : Option Follow)
  | slipTimeout (core gen : Nat)
  | handlerEntry (core gen : Nat)
  | resultLanding (core : Nat)
  | storePerform (core seg : Nat) (bytes : List (Nat × Byte))
  -- Locks and phasers (08 R176-R190, 10 R228)
  | delayedArrival (core gen : Nat)
  | endArrival (core due : Nat)
  | lockRelease (pid stage : Nat) (core : Option Nat)
  | waitBoundExceeded (core gen slot : Nat)
  | phaserRelease (pid ph : Nat) (core : Option Nat)
  -- Channels and trees (10 R212-R220)
  | flitLinkEntry (f : Flit)
  | flitWrite (f : Flit)
  | fragmentAck (tile entry n phase : Nat)
  | treeMerge (tile entry k : Nat) (input : Option (Nat × BitVec 1024))
  | treeResultWrite (f : Flit)
  -- Streams and the array (14 R297-R316, 12 R241)
  | streamBeat (tile eng run beat : Nat) (what : BeatStep)
  | windowBeatEntry (tile eng run beat : Nat)
  | windowOutputWrite (tile eng run beat : Nat) (value : Vec)
  | nestStart (tile nest : Nat)
  | arrayStep (tile nest step : Nat) (ops : Option StepOperands)
  | mclrPerform (tile acc ticket : Nat)
  | bankSwap (tile ticket : Nat)
  | mredMerge (sheaf row : Nat) (rows : Option (List (List Nat)))
  | slotDrainEnd (tile slot : Nat)
  -- Quays and collectives (15 R323-R340)
  | quayUnit (tile q serial unit : Nat) (data : Option (BitVec 512))
  | quayComplete (tile q serial : Nat)
  | collectiveCommit (cid stage : Nat)
  | collectiveAbort (cid reason : Nat)
  -- Rollback (18 R355-R368)
  | signatureMismatch (core : Nat) (addr : CodeAddr) (issued : Nat)
  | rerunRestart (pid : Nat)
  | segmentCommit (core seg : Nat)
  | roundCopy (pid : Nat)
  | roundRestore (pid : Nat) (lostZone : Option (Nat × Nat))
  -- Repair (19 R378-R386)
  | sheafShiftStep (field srow step : Nat)
  | shiftCopyEnd (field srow step : Nat)
  | zoneLoss (fcol frow : Nat)
  | plannedZoneRetirement (fcol frow : Nat)
  | zoneMove (fcol zrow : Nat)
  | zoneCopyEnd (fcol zrow : Nat)
  | periodDeviationAlarm (fcol frow : Nat)
  | dutyCycleAlarm (fcol frow : Nat)
  | regulatorAlarm (fcol frow : Nat)
  | junctionTemperatureAlarm (fcol frow : Nat)
  | coolantFlowLoss
  -- Optical circuits and groups (21 R399-R422)
  | opticalFlitDeparture (tile msg k : Nat)
  | opticalFlitWrite (f : OptFlit)
  | opticalAck (tile msg : Nat)
  | demandInterval (depths : List (List Nat))
  | laneRetraining (lane : Nat)
  | pause (port length : Nat)
  | pauseEnd (port : Nat)
  | portLost (port : Nat)
  | heartbeatLoss (modid : Nat)
  | copyhtCompletion (q : Nat)
  | cardSpareMove (card delay : Nat)
  | driftMeasurement (drift : BitVec 16)
  deriving DecidableEq, Repr

/-- The commands of a queue, as the command processor reads them (Table 9.2). -/
inductive Command where
  | launch (sig : Bool) (tok : BitVec 4) (hdr : BitVec 48)
  | launchi (sig : Bool) (tok : BitVec 4) (hdr size : BitVec 48)
  | loopc (count : BitVec 32)
  | endc
  | ifmem (cond : BitVec 2) (n : BitVec 4) (addr : BitVec 48) (value : Word)
  | waittok (tok : BitVec 8) (value : BitVec 32)
  | sigtok (tok : BitVec 4) (addend : BitVec 32)
  | copyht (sig : Bool) (tok : BitVec 4) (dir : Bool) (host : Word) (dev : BitVec 48) (len : Word)
  | mapPages (va : BitVec 48) (entry count : Word)
  | inval (va : BitVec 48) (count : Word)
  | manifest (stored result : BitVec 48)
  | preempt (pid : BitVec 16) (save : BitVec 48)
  | resume (sig : Bool) (tok : BitVec 4) (hdr save : BitVec 48)
  | retire (tile : BitVec 15)
  | selftest (scope : BitVec 4) (tile : BitVec 15)
  deriving DecidableEq, Repr

/-- The command's instruction, on queue `q`. -/
noncomputable def Command.instr (q : Nat) : Command → Instr
  | .launch sig tok hdr => .launch q sig tok hdr
  | .launchi sig tok hdr size => .launchi q sig tok hdr size
  | .loopc count => .loopc q count
  | .endc => .endc q
  | .ifmem cond n addr value => .ifmem q cond n addr value
  | .waittok tok value => .waittok q tok value
  | .sigtok tok addend => .sigtok q tok addend
  | .copyht sig tok dir host dev len => .copyht q sig tok dir host dev len
  | .mapPages va entry count => .mapPages q va entry count
  | .inval va count => .inval q va count
  | .manifest stored result => .manifest q stored result
  | .preempt pid save => .preempt q pid save
  | .resume sig tok hdr save => .resume q sig tok hdr save
  | .retire tile => .retire q tile
  | .selftest scope tile => .selftest q scope tile

/-- The steps that the machine schedules for itself and that its surroundings may schedule: what the agenda holds. -/
inductive Event where
  | waittokRelease (q : Nat)
  | invalDrainEnd (q : Nat)
  | preemptSave (pid : Nat)
  | selftestComplete (q scope tile : Nat) (fail : Bool)
  | powerOn
  | bringUp (host : Nat) (failed : List Nat) (failedFields : List Nat)
  | attest (host : Nat) (addr : Nat)
  | ownershipClaim (host : Nat)
  | ownershipRenew (host : Nat)
  | ownershipHandover (host succ : Nat)
  | ownershipRelease (host : Nat)
  | leaseExpiry
  | registerWrite (host off : Nat) (value : Word)
  | cqtailWrite (host q : Nat) (value : Word)
  | cqctlWrite (host q : Nat) (value : Word)
  | evovfClear (host q : Nat)
  | cqevtWrite (host q : Nat) (value : Word)
  | handleOpen (host ctx slot : Nat)
  | handleFree (host ctx handle : Nat)
  | handleSlotFreed (ctx slot : Nat)
  | launchPlacement (q : Nat)
  | startEntry (core : Nat)
  | groupT0Agreement (gtag : Nat) (ticks : List Nat)
  | groupColaunchTimeout (gtag : Nat)
  | loopcIdleTimeout (q : Nat)
  | stragglerEvent (pid epoch : Nat)
  | bundleIssue (core gen : Nat) (follow : Option Follow)
  | slipTimeout (core gen : Nat)
  | handlerEntry (core gen : Nat)
  | resultLanding (core : Nat)
  | storePerform (core seg : Nat) (bytes : List (Nat × Byte))
  | delayedArrival (core gen : Nat)
  | endArrival (core due : Nat)
  | lockRelease (pid stage : Nat) (core : Option Nat)
  | waitBoundExceeded (core gen slot : Nat)
  | phaserRelease (pid ph : Nat) (core : Option Nat)
  | flitLinkEntry (f : Flit)
  | flitWrite (f : Flit)
  | fragmentAck (tile entry n phase : Nat)
  | treeMerge (tile entry k : Nat) (input : Option (Nat × BitVec 1024))
  | treeResultWrite (f : Flit)
  | streamBeat (tile eng run beat : Nat) (what : BeatStep)
  | windowBeatEntry (tile eng run beat : Nat)
  | windowOutputWrite (tile eng run beat : Nat) (value : Vec)
  | nestStart (tile nest : Nat)
  | arrayStep (tile nest step : Nat) (ops : Option StepOperands)
  | mclrPerform (tile acc ticket : Nat)
  | bankSwap (tile ticket : Nat)
  | mredMerge (sheaf row : Nat) (rows : Option (List (List Nat)))
  | slotDrainEnd (tile slot : Nat)
  | quayUnit (tile q serial unit : Nat) (data : Option (BitVec 512))
  | quayComplete (tile q serial : Nat)
  | collectiveCommit (cid stage : Nat)
  | collectiveAbort (cid reason : Nat)
  | signatureMismatch (core : Nat) (addr : CodeAddr) (issued : Nat)
  | rerunRestart (pid : Nat)
  | segmentCommit (core seg : Nat)
  | roundCopy (pid : Nat)
  | roundRestore (pid : Nat) (lostZone : Option (Nat × Nat))
  | sheafShiftStep (field srow step : Nat)
  | shiftCopyEnd (field srow step : Nat)
  | zoneLoss (fcol frow : Nat)
  | plannedZoneRetirement (fcol frow : Nat)
  | zoneMove (fcol zrow : Nat)
  | zoneCopyEnd (fcol zrow : Nat)
  | periodDeviationAlarm (fcol frow : Nat)
  | dutyCycleAlarm (fcol frow : Nat)
  | regulatorAlarm (fcol frow : Nat)
  | junctionTemperatureAlarm (fcol frow : Nat)
  | coolantFlowLoss
  | opticalFlitDeparture (tile msg k : Nat)
  | opticalFlitWrite (f : OptFlit)
  | opticalAck (tile msg : Nat)
  | demandInterval (depths : List (List Nat))
  | laneRetraining (lane : Nat)
  | pause (port length : Nat)
  | pauseEnd (port : Nat)
  | portLost (port : Nat)
  | heartbeatLoss (modid : Nat)
  | copyhtCompletion (q : Nat)
  | cardSpareMove (card delay : Nat)
  | driftMeasurement (drift : BitVec 16)
  deriving DecidableEq, Repr

/-- The step's instruction. -/
noncomputable def Event.instr : Event → Instr
  | .waittokRelease q => .waittokRelease q
  | .invalDrainEnd q => .invalDrainEnd q
  | .preemptSave pid => .preemptSave pid
  | .selftestComplete q scope tile fail => .selftestComplete q scope tile fail
  | .powerOn => .powerOn
  | .bringUp host failed failedFields => .bringUp host failed failedFields
  | .attest host addr => .attest host addr
  | .ownershipClaim host => .ownershipClaim host
  | .ownershipRenew host => .ownershipRenew host
  | .ownershipHandover host succ => .ownershipHandover host succ
  | .ownershipRelease host => .ownershipRelease host
  | .leaseExpiry => .leaseExpiry
  | .registerWrite host off value => .registerWrite host off value
  | .cqtailWrite host q value => .cqtailWrite host q value
  | .cqctlWrite host q value => .cqctlWrite host q value
  | .evovfClear host q => .evovfClear host q
  | .cqevtWrite host q value => .cqevtWrite host q value
  | .handleOpen host ctx slot => .handleOpen host ctx slot
  | .handleFree host ctx handle => .handleFree host ctx handle
  | .handleSlotFreed ctx slot => .handleSlotFreed ctx slot
  | .launchPlacement q => .launchPlacement q
  | .startEntry core => .startEntry core
  | .groupT0Agreement gtag ticks => .groupT0Agreement gtag ticks
  | .groupColaunchTimeout gtag => .groupColaunchTimeout gtag
  | .loopcIdleTimeout q => .loopcIdleTimeout q
  | .stragglerEvent pid epoch => .stragglerEvent pid epoch
  | .bundleIssue core gen follow => .bundleIssue core gen follow
  | .slipTimeout core gen => .slipTimeout core gen
  | .handlerEntry core gen => .handlerEntry core gen
  | .resultLanding core => .resultLanding core
  | .storePerform core seg bytes => .storePerform core seg bytes
  | .delayedArrival core gen => .delayedArrival core gen
  | .endArrival core due => .endArrival core due
  | .lockRelease pid stage core => .lockRelease pid stage core
  | .waitBoundExceeded core gen slot => .waitBoundExceeded core gen slot
  | .phaserRelease pid ph core => .phaserRelease pid ph core
  | .flitLinkEntry f => .flitLinkEntry f
  | .flitWrite f => .flitWrite f
  | .fragmentAck tile entry n phase => .fragmentAck tile entry n phase
  | .treeMerge tile entry k input => .treeMerge tile entry k input
  | .treeResultWrite f => .treeResultWrite f
  | .streamBeat tile eng run beat what => .streamBeat tile eng run beat what
  | .windowBeatEntry tile eng run beat => .windowBeatEntry tile eng run beat
  | .windowOutputWrite tile eng run beat value => .windowOutputWrite tile eng run beat value
  | .nestStart tile nest => .nestStart tile nest
  | .arrayStep tile nest step ops => .arrayStep tile nest step ops
  | .mclrPerform tile acc ticket => .mclrPerform tile acc ticket
  | .bankSwap tile ticket => .bankSwap tile ticket
  | .mredMerge sheaf row rows => .mredMerge sheaf row rows
  | .slotDrainEnd tile slot => .slotDrainEnd tile slot
  | .quayUnit tile q serial unit data => .quayUnit tile q serial unit data
  | .quayComplete tile q serial => .quayComplete tile q serial
  | .collectiveCommit cid stage => .collectiveCommit cid stage
  | .collectiveAbort cid reason => .collectiveAbort cid reason
  | .signatureMismatch core addr issued => .signatureMismatch core addr issued
  | .rerunRestart pid => .rerunRestart pid
  | .segmentCommit core seg => .segmentCommit core seg
  | .roundCopy pid => .roundCopy pid
  | .roundRestore pid lostZone => .roundRestore pid lostZone
  | .sheafShiftStep field srow step => .sheafShiftStep field srow step
  | .shiftCopyEnd field srow step => .shiftCopyEnd field srow step
  | .zoneLoss fcol frow => .zoneLoss fcol frow
  | .plannedZoneRetirement fcol frow => .plannedZoneRetirement fcol frow
  | .zoneMove fcol zrow => .zoneMove fcol zrow
  | .zoneCopyEnd fcol zrow => .zoneCopyEnd fcol zrow
  | .periodDeviationAlarm fcol frow => .periodDeviationAlarm fcol frow
  | .dutyCycleAlarm fcol frow => .dutyCycleAlarm fcol frow
  | .regulatorAlarm fcol frow => .regulatorAlarm fcol frow
  | .junctionTemperatureAlarm fcol frow => .junctionTemperatureAlarm fcol frow
  | .coolantFlowLoss => .coolantFlowLoss
  | .opticalFlitDeparture tile msg k => .opticalFlitDeparture tile msg k
  | .opticalFlitWrite f => .opticalFlitWrite f
  | .opticalAck tile msg => .opticalAck tile msg
  | .demandInterval depths => .demandInterval depths
  | .laneRetraining lane => .laneRetraining lane
  | .pause port length => .pause port length
  | .pauseEnd port => .pauseEnd port
  | .portLost port => .portLost port
  | .heartbeatLoss modid => .heartbeatLoss modid
  | .copyhtCompletion q => .copyhtCompletion q
  | .cardSpareMove card delay => .cardSpareMove card delay
  | .driftMeasurement drift => .driftMeasurement drift

/-- What a slot word holds: a form of its own slot, a software trap or ESC (R110, R354), or one of the forms that every
slot has (R55, R56). -/
inductive Body where
  | op (i : Instr)
  | trap (imm : BitVec 32)
  | brk (imm : BitVec 32)
  | esc (imm : BitVec 32)
  | xcopy (dfile : DFile) (dreg sreg : BitVec 10)
  | xcopyLane (dfile : DFile) (dreg sreg : BitVec 10) (lane : BitVec 4)
  | xcopyBcast (dfile : DFile) (dreg sreg : BitVec 10)
  | ext (payload : BitVec 51)
  deriving DecidableEq, Repr

/-- The instruction a slot word holds. -/
noncomputable def Body.instr : Body → Instr
  | .op i => i
  | .trap n => .trap n
  | .brk n => .brk n
  | .esc n => .esc n
  | .xcopy df d a => .xcopy df d a
  | .xcopyLane df d a l => .xcopyLane df d a l
  | .xcopyBcast df d a => .xcopyBcast df d a
  | .ext p => .ext p

/-- A slot word read by the decoder: its guard and what it holds (R48). -/
structure SlotOp where
  gn   : Bool
  gp   : BitVec 4
  body : Body
  deriving DecidableEq, Repr

/-- A bundle header (R45): `sv` holds the five slot-valid bits, `reserved` says that a reserved bit is set. -/
structure Header where
  wait     : BitVec 10
  sv       : BitVec 5
  le       : Bool
  rt       : Bool
  sg       : Bool
  cstamp   : BitVec 24
  reserved : Bool
  deriving DecidableEq, Repr

/-- Why the decoder refuses a slot word. Every reason but `reservedGuard` is the 0x01 of R49, R53, R62. -/
inductive Reject where
  /-- GP = 0 with GN = 1 (R48): trap 0x02, reason 2. -/
  | reservedGuard
  /-- An opcode that the slot's table does not list (R62). -/
  | opcode
  /-- A variant that the table does not list (R62). -/
  | variant
  /-- A field code that Table 2.6 does not define (R53). -/
  | fieldCode
  /-- A nonzero bit in a field that the form does not use (R49). -/
  | zeroField
  /-- A register number outside its file, or a combination the form's entry refuses (R49). -/
  | operand
  deriving DecidableEq, Repr

end Sys2Proof
end

