-- ==== Sys2Proof/WellFormed.lean ====
section
/-! DEFINITION. Which instructions a slot accepts: the register numbers, field values and combinations that the
instruction word alone decides (R49, R53, R55 and the entries of each form). -/

namespace Sys2Proof

/-- A register number of a load's or store's FILE (R51, R120). -/
def MemOp.wf (m : MemOp) : Bool :=
  match m.file with
  | .k | .m => decide (m.reg.toNat < 32)
  | .v | .w => decide (m.reg.toNat < 640)

/-- A vector load or store accepts the files V and W only (R121, R125). -/
def MemOp.wfVec (m : MemOp) : Bool :=
  match m.file with
  | .k | .m => false
  | .v | .w => decide (m.reg.toNat < 640)

/-- A vector register number (R49). -/
def vreg (r : BitVec 10) : Bool := decide (r.toNat < 640)

/-- The number of registers of the file DFILE names (R12, R55). -/
def DFile.size : DFile → Nat
  | .k | .m => 32
  | .v | .w => 640
  | .x | .p => 16

/-- The number of registers of a slot's own file (R12). -/
def Slot.fileSize : Slot → Nat
  | .k | .m => 32
  | .v | .w => 640
  | .x => 16

/-- An XCOPY's register fields fit the files they name (R55, R111, R161, R222). -/
def xcopyFits (s : Slot) (df : DFile) (d a : BitVec 10) : Bool :=
  decide (d.toNat < df.size) && decide (a.toNat < s.fileSize)

/-- A lane-mode XCOPY exists for this slot and destination (Tables 4.7, 6.6). -/
def laneFits (s : Slot) (df : DFile) : Bool :=
  match s with
  | .v | .w => true
  | _ => df == .v || df == .w

/-- A load's block views are not LDVS views (R123). -/
def View.plain : View → Bool
  | .raw | .dec => true
  | _ => false

/-- The K slot accepts `i` (R50, R58 and the entries of chapters 04, 08, 18). -/
def wfK : Instr → Bool
  | .add .. | .sub .. | .and .. | .or .. | .xor .. | .andn .. | .shl .. | .shr .. | .sra .. | .min .. | .max ..
  | .minn .. | .maxn .. | .mul .. | .mulh .. | .mulhn .. | .div .. | .divn .. | .rem .. | .remn .. | .clz ..
  | .ctz .. | .popc .. | .sel .. | .addi .. | .andi .. | .ori .. | .xori .. | .shli .. | .shri .. | .srai ..
  | .movi .. | .muli .. | .cmpEq .. | .cmpNe .. | .cmpLt .. | .cmpLe .. | .cmpLtn .. | .cmpLen .. | .cmpiEq ..
  | .cmpiNe .. | .cmpiLt .. | .cmpiLe .. | .cmpiLtn .. | .cmpiLen .. | .pand .. | .por .. | .pxor .. | .pandn ..
  | .pset .. | .pget .. | .br .. | .jmp .. | .call .. | .ret .. | .loop .. | .loopi .. | .lexit .. | .tick ..
  | .scyc .. | .phase .. | .lkstat .. | .tadj | .sleept .. | .lock .. | .lockAnd .. | .lockOr .. | .endProg ..
  | .csrr .. | .csrw .. | .csrs .. | .csrc .. | .trap .. | .brk .. | .tret | .tretSkip | .esc .. | .ext .. => true
  | .lidx _ lvl => decide (lvl.toNat < 6)
  | .rotset imm => imm.getLsbD 7 == false && imm.getLsbD 15 == false
  | .xcopy df d a => xcopyFits .k df d a
  | .xcopyLane df d a _ => xcopyFits .k df d a && laneFits .k df
  | .xcopyBcast df d a => xcopyFits .k df d a && (df == .v || df == .w)
  | _ => false

/-- The M slot accepts `i` (R51, R59, R119-R132). -/
def wfM : Instr → Bool
  | .aadd .. | .asub .. | .aaddi .. | .ashli .. | .amuli .. | .amovi .. | .mark | .ext .. => true
  | .ldb m | .ldbn m | .ldh m | .ldhn m | .ldw m | .ldwn m | .ldd m => m.wf
  | .stb m | .sth m | .stw m | .std m => m.wf
  | .ldv m _ | .ldacc m | .stv m | .stvs m _ | .stvm m _ => m.wfVec
  | .ldvs m v _ => m.wfVec && v.plain
  | .spill _ r | .fill _ r => vreg r
  | .xcopy df d a => xcopyFits .m df d a
  | .xcopyLane df d a _ => xcopyFits .m df d a && laneFits .m df
  | .xcopyBcast df d a => xcopyFits .m df d a && (df == .v || df == .w)
  | _ => false

/-- The V slot or the W slot accepts `i` (R52, R60, chapter 06). -/
def wfV (s : Slot) : Instr → Bool
  | .vadd d a b _ _ | .vsub d a b _ _ | .vmul d a b _ _ | .vmulh d a b _ _ | .vmin d a b _ _ | .vmax d a b _ _
  | .vand d a b _ _ | .vor d a b _ _ | .vxor d a b _ _ | .vshl d a b _ _ | .vshr d a b _ _ | .vsra d a b _ _ =>
    vreg d && vreg a && vreg b
  | .vabs d a _ _ => vreg d && vreg a
  | .vcmpEq d a b _ | .vcmpNe d a b _ | .vcmpLt d a b _ | .vcmpLe d a b _ | .vcmpGt d a b _ | .vcmpGe d a b _
  | .vcmpUo d a b _ | .vcmpOrd d a b _ => vreg d && vreg a && vreg b
  | .vsel d a b c _ => vreg d && vreg a && vreg b && vreg c
  | .vdot4Ss d a b c _ | .vdot4Su d a b c _ | .vdot4Us d a b c _ | .vdot4Uu d a b c _ =>
    vreg d && vreg a && vreg b && vreg c
  | .vaddi d a _ _ | .vshli d a _ _ | .vshri d a _ _ | .vsrai d a _ _ => vreg d && vreg a
  | .vmovi d _ _ => vreg d
  | .vfadd d a b _ _ | .vfsub d a b _ _ | .vfmul d a b _ _ | .vfdiv d a b _ _ => vreg d && vreg a && vreg b
  | .vfma d a b c _ _ | .vfms d a b c _ _ | .vfnma d a b c _ _ => vreg d && vreg a && vreg b && vreg c
  | .vfmin d a b _ | .vfmax d a b _ | .vfcmpEq d a b _ | .vfcmpNe d a b _ | .vfcmpLt d a b _ | .vfcmpLe d a b _
  | .vfcmpGt d a b _ | .vfcmpGe d a b _ | .vfcmpUo d a b _ | .vfcmpOrd d a b _ | .vfsgnCopy d a b _
  | .vfsgnNcopy d a b _ | .vfsgnXor d a b _ => vreg d && vreg a && vreg b
  | .vfsgnAbs d a _ | .vfsgnNeg d a _ | .vfrcp d a _ | .vfrsq d a _ | .vfexp2 d a _ | .vflog2 d a _
  | .vfsqrt d a _ _ | .vfactTanh d a _ | .vfactSigm d a _ | .vfactGelu d a _ | .vfactSilu d a _ | .vfcls d a _
  | .vcvt d a _ _ _ _ | .vdqblkB4Bf24 d a | .vdqblkB4Lo d a | .vdqblkB4Hi d a | .vdqblkB10Bf24 d a
  | .vdqblkB10Lo d a | .vdqblkB10Hi d a | .vfrnd d a _ _ | .vredAdd d a _ | .vredMax d a _ | .vredMin d a _
  | .vredAnd d a _ | .vredOr d a _ | .vredXor d a _ | .vfredSum d a _ | .vfredMax d a _ | .vfredMin d a _
  | .vbcast d a _ _ | .vmov d a => vreg d && vreg a
  | .vqblkB4 d a b _ | .vqblkB10 d a b _ | .vperm d a b _ | .vslide d a b _ _ | .vzipLo d a b _ | .vzipHi d a b _
  | .vzipEven d a b _ | .vzipOdd d a b _ => vreg d && vreg a && vreg b
  | .vrng d _ => vreg d
  | .ext .. => true
  | .xcopy df d a => xcopyFits s df d a
  | .xcopyLane df d a _ => xcopyFits s df d a && laneFits s df
  | .xcopyBcast df d a => xcopyFits s df d a && (df == .v || df == .w)
  | _ => false

/-- The X slot accepts `i` (R54, R61 and the entries of chapters 10, 14, 15, 21). -/
def wfX : Instr → Bool
  | .xmovi .. | .xaddi .. | .send .. | .recv .. | .sendrAddF32 .. | .sendrAddBf16 .. | .sendrMaxF32 ..
  | .sendrMinF32 .. | .sendrAddI32 .. | .sendrXor .. | .recvr .. | .chst .. | .psig .. | .pwait .. | .omclaim ..
  | .omrel .. | .mstat .. | .mgo .. | .mswap .. | .mwait .. | .mred .. | .mclr .. | .qget .. | .qput ..
  | .qgath .. | .qatomAdd .. | .qatomMin .. | .qatomMax .. | .qatomMinn .. | .qatomMaxn .. | .qatomSwap ..
  | .qatomCas .. | .qatomAnd .. | .qatomOr .. | .qatomXor .. | .qmark .. | .qtpop .. | .qwait .. | .coll ..
  | .cwait .. | .osend .. | .orecv .. | .ogap .. | .over .. | .ext .. => true
  | .pregSw ph | .pregSo ph | .pregWo ph | .pdrop ph => decide (ph.toNat ≠ 0)
  | .scfg st _ _ | .sfree st | .swait st _ | .sgo st => decide (st.toNat < 6)
  | .sbind st _ r _ => decide (st.toNat < 6) && decide (632 ≤ r.toNat) && decide (r.toNat < 640)
  | .mcfg lvl f _ =>
    (decide (lvl.toNat < 6) && decide (f.toNat < 4)) ||
      (decide (8 ≤ lvl.toNat) && decide (lvl.toNat < 15) && decide (f.toNat = 0))
  | .xcopy df d a => xcopyFits .x df d a
  | .xcopyLane df d a _ => xcopyFits .x df d a && laneFits .x df
  | .xcopyBcast df d a => xcopyFits .x df d a && (df == .v || df == .w)
  | _ => false

/-- Slot `s` accepts instruction `i`: what the instruction word alone decides. -/
def wfIn (s : Slot) (i : Instr) : Bool :=
  match s with
  | .k => wfK i
  | .m => wfM i
  | .v | .w => wfV s i
  | .x => wfX i

/-- A command's fields: the alignment of its addresses and lengths, and the range of its counts (Table 9.2). -/
def commandWf : Command → Bool
  | .launch _ _ hdr => decide (hdr.toNat % 256 = 0)
  | .launchi _ _ hdr size => decide (hdr.toNat % 256 = 0) && decide (size.toNat % 8 = 0)
  | .ifmem _ n addr _ => decide (n.toNat ≠ 0) && decide (addr.toNat % 8 = 0)
  | .copyht _ _ _ _ _ len => decide (len.toNat % 64 = 0) && decide (len.toNat ≤ 2 ^ 32)
  | .mapPages va _ _ => decide (va.toNat % 2 ^ 21 = 0)
  | .loopc _ | .endc | .waittok _ _ | .sigtok _ _ | .inval _ _ | .manifest _ _ | .preempt _ _ | .resume _ _ _ _ | .retire _ | .selftest _ _ => true

end Sys2Proof
end

