-- ==== Sys2Proof/Decode.lean ====
section
/-! DEFINITION. The decoder of slot words, bundle headers and command words, and the encoder of slot words
(02 R44-R62, 09 R194). A bit pattern is a natural number; bit 0 is the least significant. -/

namespace Sys2Proof

/-- `n` bits of `w` from bit `lo`, as a bit vector. -/
def bv (w lo n : Nat) : BitVec n := BitVec.ofNat n (w / 2 ^ lo)

/-- Bit `lo` of `w`. -/
def bit1 (w lo : Nat) : Bool := decide (w / 2 ^ lo % 2 = 1)

/-! ## Field codes (Table 2.6) -/

def readIType (n : Nat) : Except Reject IType :=
  match n with
  | 0 => .ok .i32 | 1 => .ok .i16 | 2 => .ok .i8 | 4 => .ok .n32 | 5 => .ok .n16 | 6 => .ok .n8
  | _ => .error .fieldCode

def codeIType : IType → Nat
  | .i32 => 0 | .i16 => 1 | .i8 => 2 | .n32 => 4 | .n16 => 5 | .n8 => 6

def readFType (n : Nat) : Except Reject FType :=
  match n with
  | 0 => .ok .f32 | 1 => .ok .bf16 | 2 => .ok .f16
  | _ => .error .fieldCode

def codeFType : FType → Nat
  | .f32 => 0 | .bf16 => 1 | .f16 => 2

def readRMode (n : Nat) : Except Reject RMode :=
  match n with
  | 0 => .ok .rne | 1 => .ok .rz | 2 => .ok .rd | 3 => .ok .ru | 4 => .ok .rs | 5 => .ok .dyn
  | _ => .error .fieldCode

def codeRMode : RMode → Nat
  | .rne => 0 | .rz => 1 | .rd => 2 | .ru => 3 | .rs => 4 | .dyn => 5

def readFmt (n : Nat) : Except Reject Fmt :=
  match n with
  | 0 => .ok .f32 | 1 => .ok .bf16 | 2 => .ok .f16 | 3 => .ok .e4m3 | 4 => .ok .e5m2 | 5 => .ok .i32
  | 6 => .ok .i16 | 7 => .ok .i8 | 8 => .ok .n32 | 9 => .ok .n16 | 10 => .ok .n8
  | _ => .error .fieldCode

def codeFmt : Fmt → Nat
  | .f32 => 0 | .bf16 => 1 | .f16 => 2 | .e4m3 => 3 | .e5m2 => 4 | .i32 => 5
  | .i16 => 6 | .i8 => 7 | .n32 => 8 | .n16 => 9 | .n8 => 10

def readFile (n : Nat) : File :=
  match n % 4 with
  | 0 => .k | 1 => .m | 2 => .v | _ => .w

def codeFile : File → Nat
  | .k => 0 | .m => 1 | .v => 2 | .w => 3

def readVFile (n : Nat) : Except Reject VFile :=
  match n % 4 with
  | 2 => .ok .v | 3 => .ok .w
  | _ => .error .operand

def codeVFile : VFile → Nat
  | .v => 2 | .w => 3

def readDFile (n : Nat) : Except Reject DFile :=
  match n % 8 with
  | 0 => .ok .k | 1 => .ok .m | 2 => .ok .v | 3 => .ok .w | 4 => .ok .x | 5 => .ok .p
  | _ => .error .fieldCode

def codeDFile : DFile → Nat
  | .k => 0 | .m => 1 | .v => 2 | .w => 3 | .x => 4 | .p => 5

def readView (n : Nat) : Except Reject View :=
  match n % 8 with
  | 0 => .ok .raw | 1 => .ok .dec | 2 => .ok .bf24 | 3 => .ok .blo | 4 => .ok .bhi
  | _ => .error .fieldCode

def codeView : View → Nat
  | .raw => 0 | .dec => 1 | .bf24 => 2 | .blo => 3 | .bhi => 4

/-- Go on only when a field the form does not use is zero (R49). -/
def zero (n : Nat) (r : Except Reject Instr) : Except Reject Instr :=
  if n = 0 then r else .error .zeroField

/-! ## K-slot formats (Table 2.3) -/

def krDAB (w : Nat) (f : BitVec 5 → BitVec 5 → BitVec 5 → Instr) : Except Reject Instr :=
  zero (fld w 0 36) (.ok (f (bv w 46 5) (bv w 41 5) (bv w 36 5)))

def krDA (w : Nat) (f : BitVec 5 → BitVec 5 → Instr) : Except Reject Instr :=
  zero (fld w 0 41) (.ok (f (bv w 46 5) (bv w 41 5)))

def krD (w : Nat) (f : BitVec 5 → Instr) : Except Reject Instr :=
  zero (fld w 0 46) (.ok (f (bv w 46 5)))

def krA (w : Nat) (f : BitVec 5 → Instr) : Except Reject Instr :=
  zero (fld w 46 5) (zero (fld w 0 41) (.ok (f (bv w 41 5))))

def kiDA (w : Nat) (f : BitVec 5 → BitVec 5 → BitVec 32 → Instr) : Except Reject Instr :=
  zero (fld w 0 9) (.ok (f (bv w 46 5) (bv w 41 5) (bv w 9 32)))

def kiD (w : Nat) (f : BitVec 5 → BitVec 32 → Instr) : Except Reject Instr :=
  zero (fld w 41 5) (zero (fld w 0 9) (.ok (f (bv w 46 5) (bv w 9 32))))

def ki (w : Nat) (f : BitVec 32 → Instr) : Except Reject Instr :=
  zero (fld w 41 10) (zero (fld w 0 9) (.ok (f (bv w 9 32))))

def kcAB (w : Nat) (f : BitVec 4 → BitVec 5 → BitVec 5 → Instr) : Except Reject Instr :=
  zero (fld w 0 34) (.ok (f (bv w 47 4) (bv w 42 5) (bv w 37 5)))

def kcAI (w : Nat) (f : BitVec 4 → BitVec 5 → BitVec 24 → Instr) : Except Reject Instr :=
  zero (fld w 37 5) (zero (fld w 33 1) (zero (fld w 0 9) (.ok (f (bv w 47 4) (bv w 42 5) (bv w 9 24)))))

def kp (w : Nat) (f : BitVec 4 → BitVec 4 → BitVec 4 → Instr) : Except Reject Instr :=
  zero (fld w 0 39) (.ok (f (bv w 47 4) (bv w 43 4) (bv w 39 4)))

def kbOff (w : Nat) (f : BitVec 24 → Instr) : Except Reject Instr :=
  zero (fld w 46 5) (zero (fld w 0 22) (.ok (f (bv w 22 24))))

def kbA (w : Nat) (f : BitVec 5 → Instr) : Except Reject Instr :=
  zero (fld w 0 46) (.ok (f (bv w 46 5)))

def ksDA (w : Nat) (f : BitVec 5 → BitVec 5 → BitVec 12 → BitVec 16 → Instr) : Except Reject Instr :=
  zero (fld w 0 13) (.ok (f (bv w 46 5) (bv w 41 5) (bv w 29 12) (bv w 13 16)))

/-- LOCK: VOTE in [19:18], WIN in [20], ROUND in [21], the vote predicate in [49:46] (R50). -/
def lockForm (w : Nat) : Except Reject Instr :=
  zero (fld w 50 1) (zero (fld w 22 24)
    (match fld w 18 2 with
     | 0 => zero (fld w 46 4) (.ok (.lock (bit1 w 21) (bit1 w 20) (bv w 0 18)))
     | 1 => .ok (.lockAnd (bv w 46 4) (bit1 w 21) (bit1 w 20) (bv w 0 18))
     | 2 => .ok (.lockOr (bv w 46 4) (bit1 w 21) (bit1 w 20) (bv w 0 18))
     | _ => .error .variant))

/-! ## XCOPY and EXT, in every slot (R55, R56) -/

def xcopyForm (w : Nat) : Except Reject Body :=
  if fld w 0 22 ≠ 0 then .error .zeroField
  else
    (match readDFile (fld w 48 3) with
     | .error e => .error e
     | .ok df =>
       match fld w 22 2 with
       | 0 => if fld w 24 4 = 0 then .ok (.xcopy df (bv w 38 10) (bv w 28 10)) else .error .zeroField
       | 1 => .ok (.xcopyLane df (bv w 38 10) (bv w 28 10) (bv w 24 4))
       | 2 => if fld w 24 4 = 0 then .ok (.xcopyBcast df (bv w 38 10) (bv w 28 10)) else .error .zeroField
       | _ => .error .variant)

def extForm (w : Nat) : Except Reject Body := .ok (.ext (bv w 0 51))

/-- The K-slot opcode map (Table 2.9). -/
def decodeK (w : Nat) : Except Reject Instr :=
  match fld w 56 8 with
  | 0x01 => krDAB w .add | 0x02 => krDAB w .sub | 0x03 => krDAB w .and | 0x04 => krDAB w .or
  | 0x05 => krDAB w .xor | 0x06 => krDAB w .andn | 0x07 => krDAB w .shl | 0x08 => krDAB w .shr
  | 0x09 => krDAB w .sra | 0x0A => krDAB w .min | 0x0B => krDAB w .max | 0x0C => krDAB w .minn
  | 0x0D => krDAB w .maxn | 0x0E => krDAB w .mul | 0x0F => krDAB w .mulh | 0x10 => krDAB w .mulhn
  | 0x11 => krDAB w .div | 0x12 => krDAB w .divn | 0x13 => krDAB w .rem | 0x14 => krDAB w .remn
  | 0x15 => krDA w .clz | 0x16 => krDA w .ctz | 0x17 => krDA w .popc
  | 0x18 => zero (fld w 0 32) (.ok (.sel (bv w 46 5) (bv w 41 5) (bv w 36 5) (bv w 32 4)))
  | 0x20 => kiDA w .addi | 0x21 => kiDA w .andi | 0x22 => kiDA w .ori | 0x23 => kiDA w .xori
  | 0x24 => kiDA w .shli | 0x25 => kiDA w .shri | 0x26 => kiDA w .srai | 0x27 => kiD w .movi
  | 0x28 => kiDA w .muli
  | 0x30 =>
    match fld w 34 3 with
    | 0 => kcAB w .cmpEq | 1 => kcAB w .cmpNe | 2 => kcAB w .cmpLt | 3 => kcAB w .cmpLe
    | 4 => kcAB w .cmpLtn | 5 => kcAB w .cmpLen | _ => .error .variant
  | 0x31 =>
    match fld w 34 3 with
    | 0 => kcAI w .cmpiEq | 1 => kcAI w .cmpiNe | 2 => kcAI w .cmpiLt | 3 => kcAI w .cmpiLe
    | 4 => kcAI w .cmpiLtn | 5 => kcAI w .cmpiLen | _ => .error .variant
  | 0x32 => kp w .pand | 0x33 => kp w .por | 0x34 => kp w .pxor | 0x35 => kp w .pandn
  | 0x36 => krA w .pset | 0x37 => krD w .pget
  | 0x40 => kbOff w .br | 0x41 => kbA w .jmp | 0x42 => kbOff w .call | 0x43 => kbA w .ret
  | 0x44 => zero (fld w 0 22) (.ok (.loop (bv w 46 5) (bv w 22 24)))
  | 0x45 => zero (fld w 46 5) (zero (fld w 18 4) (.ok (.loopi (bv w 22 24) (bv w 0 18))))
  | 0x46 => kbOff w .lexit
  | 0x47 => zero (fld w 22 24) (zero (fld w 0 18) (.ok (.lidx (bv w 46 5) (bv w 18 4))))
  | 0x48 => ki w .rotset
  | 0x50 => krD w .tick | 0x51 => krD w .scyc
  | 0x52 => zero (fld w 0 51) (.ok .tadj)
  | 0x53 => krA w .sleept
  | 0x54 => lockForm w
  | 0x55 => krD w .phase
  | 0x56 => zero (fld w 18 33) (.ok (.endProg (bv w 0 18)))
  | 0x57 => krD w .lkstat
  | 0x60 => zero (fld w 41 5) (zero (fld w 0 29) (.ok (.csrr (bv w 46 5) (bv w 29 12))))
  | 0x61 => ksDA w .csrw | 0x62 => ksDA w .csrs | 0x63 => ksDA w .csrc
  | 0x65 => zero (fld w 36 15) (zero (fld w 0 33)
      (match fld w 33 3 with
       | 0 => .ok .tret | 1 => .ok .tretSkip | _ => .error .variant))
  | _ => .error .opcode

/-! ## M-slot formats (Table 2.4) -/

def maDAB (w : Nat) (f : BitVec 5 → BitVec 5 → BitVec 5 → Instr) : Except Reject Instr :=
  zero (fld w 0 36) (.ok (f (bv w 46 5) (bv w 41 5) (bv w 36 5)))

def maDAI (w : Nat) (f : BitVec 5 → BitVec 5 → BitVec 32 → Instr) : Except Reject Instr :=
  zero (fld w 36 5) (zero (fld w 0 4) (.ok (f (bv w 46 5) (bv w 41 5) (bv w 4 32))))

def memOp (w : Nat) : MemOp :=
  { base := bv w 46 5, file := readFile (fld w 44 2), reg := bv w 34 10, off := bv w 10 24, post := bit1 w 9 }

/-- A load or store with VIEW and AUX zero. -/
def mlPlain (w : Nat) (f : MemOp → Instr) : Except Reject Instr := zero (fld w 0 9) (.ok (f (memOp w)))

/-- A load with VIEW. -/
def mlView (w : Nat) (f : MemOp → View → Instr) : Except Reject Instr :=
  zero (fld w 0 6)
    (match readView (fld w 6 3) with
     | .error e => .error e
     | .ok v => .ok (f (memOp w) v))

/-- A load with VIEW and AUX. -/
def mlViewAux (w : Nat) (f : MemOp → View → BitVec 5 → Instr) : Except Reject Instr :=
  zero (fld w 0 1)
    (match readView (fld w 6 3) with
     | .error e => .error e
     | .ok v => .ok (f (memOp w) v (bv w 1 5)))

/-- A store with AUX. -/
def msAux (w : Nat) (f : MemOp → BitVec 5 → Instr) : Except Reject Instr :=
  zero (fld w 6 3) (zero (fld w 0 1) (.ok (f (memOp w) (bv w 1 5))))

def mxForm (w : Nat) (f : VFile → BitVec 10 → Instr) : Except Reject Instr :=
  zero (fld w 46 5) (zero (fld w 0 34)
    (match readVFile (fld w 44 2) with
     | .error e => .error e
     | .ok vf => .ok (f vf (bv w 34 10))))

/-- The M-slot opcode map (Table 2.10). -/
def decodeM (w : Nat) : Except Reject Instr :=
  match fld w 56 8 with
  | 0x01 => maDAB w .aadd | 0x02 => maDAB w .asub
  | 0x03 => maDAI w .aaddi | 0x04 => maDAI w .ashli | 0x05 => maDAI w .amuli
  | 0x06 => zero (fld w 36 10) (zero (fld w 0 4) (.ok (.amovi (bv w 46 5) (bv w 4 32))))
  | 0x10 => mlPlain w .ldb | 0x11 => mlPlain w .ldbn | 0x12 => mlPlain w .ldh | 0x13 => mlPlain w .ldhn
  | 0x14 => mlPlain w .ldw | 0x15 => mlPlain w .ldwn | 0x16 => mlPlain w .ldd
  | 0x18 => mlView w .ldv | 0x19 => mlViewAux w .ldvs | 0x1A => mlPlain w .ldacc
  | 0x20 => mlPlain w .stb | 0x21 => mlPlain w .sth | 0x22 => mlPlain w .stw | 0x23 => mlPlain w .std
  | 0x24 => mlPlain w .stv | 0x25 => msAux w .stvs | 0x26 => msAux w .stvm
  | 0x30 => zero (fld w 0 51) (.ok .mark)
  | 0x38 => mxForm w .spill | 0x39 => mxForm w .fill
  | _ => .error .opcode

/-! ## V- and W-slot formats (Table 2.5) -/

/-- Read an integer TYPE, then go on. -/
def withI (n : Nat) (f : IType → Except Reject Instr) : Except Reject Instr :=
  match readIType n with
  | .error e => .error e
  | .ok t => f t

/-- Read a float TYPE, then go on. -/
def withF (n : Nat) (f : FType → Except Reject Instr) : Except Reject Instr :=
  match readFType n with
  | .error e => .error e
  | .ok t => f t

/-- Read RM, then go on. -/
def withR (n : Nat) (f : RMode → Except Reject Instr) : Except Reject Instr :=
  match readRMode n with
  | .error e => .error e
  | .ok r => f r

def vrSat (w : Nat) (f : BitVec 10 → BitVec 10 → BitVec 10 → IType → Bool → Instr) : Except Reject Instr :=
  zero (fld w 11 10) (zero (fld w 5 3) (zero (fld w 0 4)
    (withI (fld w 8 3) fun t => .ok (f (bv w 41 10) (bv w 31 10) (bv w 21 10) t (bit1 w 4)))))

def vrI (w : Nat) (f : BitVec 10 → BitVec 10 → BitVec 10 → IType → Instr) : Except Reject Instr :=
  zero (fld w 11 10) (zero (fld w 4 4)
    (withI (fld w 8 3) fun t => .ok (f (bv w 41 10) (bv w 31 10) (bv w 21 10) t)))

/-- A one-source integer form whose VAR chooses the form. -/
def vrIA (w : Nat) (f : BitVec 10 → BitVec 10 → IType → Instr) : Except Reject Instr :=
  zero (fld w 11 20) (zero (fld w 4 4)
    (withI (fld w 8 3) fun t => .ok (f (bv w 41 10) (bv w 31 10) t)))

def vdot (w : Nat) (f : BitVec 10 → BitVec 10 → BitVec 10 → BitVec 10 → Bool → Instr) : Except Reject Instr :=
  zero (fld w 5 6) (.ok (f (bv w 41 10) (bv w 31 10) (bv w 21 10) (bv w 11 10) (bit1 w 4)))

def viDA (w : Nat) (f : BitVec 10 → BitVec 10 → BitVec 23 → IType → Instr) : Except Reject Instr :=
  zero (fld w 0 5) (withI (fld w 5 3) fun t => .ok (f (bv w 41 10) (bv w 31 10) (bv w 8 23) t))

def vrFR (w : Nat) (f : BitVec 10 → BitVec 10 → BitVec 10 → FType → RMode → Instr) : Except Reject Instr :=
  zero (fld w 11 10) (zero (fld w 0 5)
    (withF (fld w 8 3) fun t => withR (fld w 5 3) fun r => .ok (f (bv w 41 10) (bv w 31 10) (bv w 21 10) t r)))

def vrFRC (w : Nat) (f : BitVec 10 → BitVec 10 → BitVec 10 → BitVec 10 → FType → RMode → Instr) :
    Except Reject Instr :=
  zero (fld w 0 5)
    (withF (fld w 8 3) fun t => withR (fld w 5 3) fun r =>
      .ok (f (bv w 41 10) (bv w 31 10) (bv w 21 10) (bv w 11 10) t r))

def vrFRA (w : Nat) (f : BitVec 10 → BitVec 10 → FType → RMode → Instr) : Except Reject Instr :=
  zero (fld w 11 20) (zero (fld w 0 5)
    (withF (fld w 8 3) fun t => withR (fld w 5 3) fun r => .ok (f (bv w 41 10) (bv w 31 10) t r)))

/-- A two-source float form without RM whose VAR chooses the form. -/
def vrF (w : Nat) (f : BitVec 10 → BitVec 10 → BitVec 10 → FType → Instr) : Except Reject Instr :=
  zero (fld w 11 10) (zero (fld w 4 4)
    (withF (fld w 8 3) fun t => .ok (f (bv w 41 10) (bv w 31 10) (bv w 21 10) t)))

/-- A one-source float form without RM whose VAR chooses the form. -/
def vrFA (w : Nat) (f : BitVec 10 → BitVec 10 → FType → Instr) : Except Reject Instr :=
  zero (fld w 11 20) (zero (fld w 4 4)
    (withF (fld w 8 3) fun t => .ok (f (bv w 41 10) (bv w 31 10) t)))

def vcForm (w : Nat) : Except Reject Instr :=
  zero (fld w 21 10) (zero (fld w 8 5) (zero (fld w 0 4)
    (match readFmt (fld w 17 4), readFmt (fld w 13 4) with
     | .ok df, .ok sf => withR (fld w 5 3) fun r => .ok (.vcvt (bv w 41 10) (bv w 31 10) df sf r (bit1 w 4))
     | _, _ => .error .fieldCode)))

def vqForm (w : Nat) (f : BitVec 10 → BitVec 10 → BitVec 10 → RMode → Instr) : Except Reject Instr :=
  zero (fld w 8 13) (zero (fld w 4 1)
    (withR (fld w 5 3) fun r => .ok (f (bv w 41 10) (bv w 31 10) (bv w 21 10) r)))

def vrDA (w : Nat) (f : BitVec 10 → BitVec 10 → Instr) : Except Reject Instr :=
  zero (fld w 4 27) (.ok (f (bv w 41 10) (bv w 31 10)))

/-- The V- and W-slot opcode map (Table 2.11). -/
def decodeV (w : Nat) : Except Reject Instr :=
  match fld w 56 8 with
  | 0x01 => vrSat w .vadd | 0x02 => vrSat w .vsub | 0x03 => vrSat w .vmul | 0x04 => vrSat w .vmulh
  | 0x05 => vrSat w .vmin | 0x06 => vrSat w .vmax | 0x07 => vrSat w .vand | 0x08 => vrSat w .vor
  | 0x09 => vrSat w .vxor | 0x0A => vrSat w .vshl | 0x0B => vrSat w .vshr | 0x0C => vrSat w .vsra
  | 0x0D => zero (fld w 21 10) (vrSat w fun d a _ t sat => .vabs d a t sat)
  | 0x0E =>
    match fld w 0 4 with
    | 0 => vrI w .vcmpEq | 1 => vrI w .vcmpNe | 2 => vrI w .vcmpLt | 3 => vrI w .vcmpLe | 4 => vrI w .vcmpGt
    | 5 => vrI w .vcmpGe | 6 => vrI w .vcmpUo | 7 => vrI w .vcmpOrd | _ => .error .variant
  | 0x0F => zero (fld w 0 8) (withI (fld w 8 3) fun t =>
      .ok (.vsel (bv w 41 10) (bv w 31 10) (bv w 21 10) (bv w 11 10) t))
  | 0x10 =>
    match fld w 0 4 with
    | 0 => vdot w .vdot4Ss | 1 => vdot w .vdot4Su | 2 => vdot w .vdot4Us | 3 => vdot w .vdot4Uu
    | _ => .error .variant
  | 0x11 => viDA w .vaddi | 0x12 => viDA w .vshli | 0x13 => viDA w .vshri | 0x14 => viDA w .vsrai
  | 0x15 => zero (fld w 31 10) (viDA w fun d _ imm t => .vmovi d imm t)
  | 0x20 => vrFR w .vfadd | 0x21 => vrFR w .vfsub | 0x22 => vrFR w .vfmul
  | 0x23 => vrFRC w .vfma | 0x24 => vrFRC w .vfms | 0x25 => vrFRC w .vfnma
  | 0x26 => zero (fld w 0 4) (vrF w .vfmin) | 0x27 => zero (fld w 0 4) (vrF w .vfmax)
  | 0x28 =>
    match fld w 0 4 with
    | 0 => vrF w .vfcmpEq | 1 => vrF w .vfcmpNe | 2 => vrF w .vfcmpLt | 3 => vrF w .vfcmpLe
    | 4 => vrF w .vfcmpGt | 5 => vrF w .vfcmpGe | 6 => vrF w .vfcmpUo | 7 => vrF w .vfcmpOrd
    | _ => .error .variant
  | 0x29 =>
    match fld w 0 4 with
    | 0 => vrF w .vfsgnCopy | 1 => vrF w .vfsgnNcopy | 2 => vrF w .vfsgnXor
    | 3 => vrFA w .vfsgnAbs | 4 => vrFA w .vfsgnNeg | _ => .error .variant
  | 0x2A => zero (fld w 0 4) (vrFA w .vfrcp) | 0x2B => zero (fld w 0 4) (vrFA w .vfrsq)
  | 0x2C => vrFRA w .vfsqrt | 0x2D => vrFR w .vfdiv
  | 0x2E => zero (fld w 0 4) (vrFA w .vfexp2) | 0x2F => zero (fld w 0 4) (vrFA w .vflog2)
  | 0x30 =>
    match fld w 0 4 with
    | 0 => vrFA w .vfactTanh | 1 => vrFA w .vfactSigm | 2 => vrFA w .vfactGelu | 3 => vrFA w .vfactSilu
    | _ => .error .variant
  | 0x31 => zero (fld w 0 4) (vrFA w .vfcls)
  | 0x38 => vcForm w
  | 0x39 =>
    match fld w 0 4 with
    | 0 => vqForm w .vqblkB4 | 1 => vqForm w .vqblkB10 | _ => .error .variant
  | 0x3A =>
    match fld w 0 4 with
    | 0 => vrDA w .vdqblkB4Bf24 | 1 => vrDA w .vdqblkB4Lo | 2 => vrDA w .vdqblkB4Hi
    | 4 => vrDA w .vdqblkB10Bf24 | 5 => vrDA w .vdqblkB10Lo | 6 => vrDA w .vdqblkB10Hi
    | _ => .error .variant
  | 0x3B => vrFRA w .vfrnd
  | 0x40 =>
    match fld w 0 4 with
    | 0 => vrIA w .vredAdd | 1 => vrIA w .vredMax | 2 => vrIA w .vredMin | 3 => vrIA w .vredAnd
    | 4 => vrIA w .vredOr | 5 => vrIA w .vredXor | _ => .error .variant
  | 0x41 =>
    match fld w 0 4 with
    | 0 => vrFA w .vfredSum | 1 => vrFA w .vfredMax | 2 => vrFA w .vfredMin | _ => .error .variant
  | 0x42 => zero (fld w 0 4) (vrI w .vperm)
  | 0x43 => vrIA w fun d a t => .vbcast d a t (bv w 0 4)
  | 0x44 => vrI w fun d a b t => .vslide d a b t (bv w 0 4)
  | 0x45 =>
    match fld w 0 4 with
    | 0 => vrI w .vzipLo | 1 => vrI w .vzipHi | 2 => vrI w .vzipEven | 3 => vrI w .vzipOdd
    | _ => .error .variant
  | 0x48 => zero (fld w 11 30) (zero (fld w 0 8) (withI (fld w 8 3) fun t => .ok (.vrng (bv w 41 10) t)))
  | 0x50 => zero (fld w 0 4) (vrDA w .vmov)
  | _ => .error .opcode

/-! ## X-slot formats (Table 2.7) -/

/-- A blocking channel form: VAR is the form's, BOUND in [19:0]. -/
def xcForm (w : Nat) (f : BitVec 8 → BitVec 4 → BitVec 20 → Instr) : Except Reject Instr :=
  zero (fld w 20 16) (.ok (f (bv w 43 8) (bv w 39 4) (bv w 0 20)))

def xpForm (w : Nat) (f : BitVec 6 → Instr) : Except Reject Instr :=
  zero (fld w 0 43) (.ok (f (bv w 45 6)))

def xrD (w : Nat) (f : BitVec 4 → Instr) : Except Reject Instr := zero (fld w 0 47) (.ok (f (bv w 47 4)))

def xrA (w : Nat) (f : BitVec 4 → Instr) : Except Reject Instr :=
  zero (fld w 47 4) (zero (fld w 0 43) (.ok (f (bv w 43 4))))

def xsSt (w : Nat) (f : BitVec 3 → Instr) : Except Reject Instr := zero (fld w 0 48) (.ok (f (bv w 48 3)))

def xmBound (w : Nat) (f : BitVec 20 → Instr) : Except Reject Instr := zero (fld w 20 31) (.ok (f (bv w 0 20)))

def quayOp (w : Nat) : QuayOp :=
  { q := bv w 49 2, xd := bv w 45 4, xa := bv w 41 4, xb := bv w 37 4, tp := bit1 w 36, tw := bit1 w 35,
    tid := bv w 33 2, bound := bv w 0 20 }

def xqForm (w : Nat) (f : QuayOp → Instr) : Except Reject Instr :=
  zero (fld w 20 9) (.ok (f (quayOp w)))

/-- AOP in [32:29] names the atomic operation (Table 2.12). -/
def qatomForm (w : Nat) : Except Reject Instr :=
  match fld w 29 4 with
  | 0 => xqForm w .qatomAdd | 1 => xqForm w .qatomMin | 2 => xqForm w .qatomMax | 3 => xqForm w .qatomMinn
  | 4 => xqForm w .qatomMaxn | 5 => xqForm w .qatomSwap | 6 => xqForm w .qatomCas | 7 => xqForm w .qatomAnd
  | 8 => xqForm w .qatomOr | 9 => xqForm w .qatomXor | _ => .error .variant

/-- The X-slot opcode map (Table 2.12). -/
def decodeX (w : Nat) : Except Reject Instr :=
  match fld w 56 8 with
  | 0x01 => zero (fld w 43 4) (zero (fld w 0 11) (.ok (.xmovi (bv w 47 4) (bv w 11 32))))
  | 0x02 => zero (fld w 0 11) (.ok (.xaddi (bv w 47 4) (bv w 43 4) (bv w 11 32)))
  | 0x10 => zero (fld w 36 3) (xcForm w .send)
  | 0x11 => zero (fld w 36 3) (xcForm w .recv)
  | 0x12 =>
    match fld w 36 3 with
    | 0 => xcForm w .sendrAddF32 | 1 => xcForm w .sendrAddBf16 | 2 => xcForm w .sendrMaxF32
    | 3 => xcForm w .sendrMinF32 | 4 => xcForm w .sendrAddI32 | 5 => xcForm w .sendrXor | _ => .error .variant
  | 0x13 => zero (fld w 36 3) (xcForm w .recvr)
  | 0x14 => zero (fld w 0 39) (.ok (.chst (bv w 43 8) (bv w 39 4)))
  | 0x20 =>
    match fld w 43 2 with
    | 0 => zero (fld w 0 43) (.ok (.pregSw (bv w 45 6)))
    | 1 => zero (fld w 0 43) (.ok (.pregSo (bv w 45 6)))
    | 2 => zero (fld w 0 43) (.ok (.pregWo (bv w 45 6)))
    | _ => .error .variant
  | 0x21 => zero (fld w 43 2) (xpForm w .pdrop)
  | 0x22 => zero (fld w 43 2) (xpForm w .psig)
  | 0x23 => zero (fld w 20 25) (.ok (.pwait (bv w 45 6) (bv w 0 20)))
  | 0x30 => zero (fld w 47 1) (zero (fld w 0 40) (.ok (.scfg (bv w 48 3) (bv w 44 3) (bv w 40 4))))
  | 0x31 => zero (fld w 40 8) (zero (fld w 0 28)
      (.ok (.sbind (bv w 48 3) (if bit1 w 39 then .w else .v) (bv w 29 10) (bit1 w 28))))
  | 0x32 => xsSt w .sfree
  | 0x33 => zero (fld w 20 28) (.ok (.swait (bv w 48 3) (bv w 0 20)))
  | 0x34 => xsSt w .sgo
  | 0x40 => xrD w .omclaim | 0x41 => xrA w .omrel
  | 0x42 => zero (fld w 46 5) (zero (fld w 0 34) (.ok (.mcfg (bv w 38 4) (bv w 34 4) (bv w 42 4))))
  | 0x43 => zero (fld w 34 17) (zero (fld w 20 12) (.ok (.mgo (bit1 w 33) (bit1 w 32) (bv w 0 20))))
  | 0x44 => xmBound w .mswap | 0x45 => xmBound w .mwait
  | 0x46 => zero (fld w 50 1) (zero (fld w 20 26) (.ok (.mred (bv w 46 4) (bv w 0 20))))
  | 0x47 => zero (fld w 50 1) (zero (fld w 0 46) (.ok (.mclr (bv w 46 4))))
  | 0x48 => xrD w .mstat
  | 0x50 => zero (fld w 29 4) (xqForm w .qget)
  | 0x51 => zero (fld w 29 4) (xqForm w .qput)
  | 0x52 => zero (fld w 29 4) (xqForm w .qgath)
  | 0x53 => qatomForm w
  | 0x54 => zero (fld w 0 49) (.ok (.qmark (bv w 49 2)))
  | 0x55 => zero (fld w 35 10) (zero (fld w 20 13) (.ok (.qtpop (bv w 49 2) (bv w 45 4) (bv w 33 2) (bv w 0 20))))
  | 0x56 => zero (fld w 20 25) (.ok (.qwait (bv w 49 2) (bv w 45 4) (bv w 0 20)))
  | 0x60 => zero (fld w 0 43) (.ok (.coll (bv w 47 4) (bv w 43 4)))
  | 0x61 => zero (fld w 47 4) (zero (fld w 20 23) (.ok (.cwait (bv w 43 4) (bv w 0 20))))
  | 0x70 => zero (fld w 20 20) (.ok (.osend (bv w 44 7) (bv w 40 4) (bv w 0 20)))
  | 0x71 => zero (fld w 20 20) (.ok (.orecv (bv w 44 7) (bv w 40 4) (bv w 0 20)))
  | 0x72 => zero (fld w 40 11) (zero (fld w 0 20) (.ok (.ogap (bv w 20 20))))
  | 0x73 => xrA w .over
  | _ => .error .opcode

/-- The opcode maps of the slots (R58-R61). -/
def decodeMap (s : Slot) (w : Nat) : Except Reject Instr :=
  match s with
  | .k => decodeK w
  | .m => decodeM w
  | .v | .w => decodeV w
  | .x => decodeX w

/-- A K-slot word whose one field is IMM32. -/
def kiBody (w : Nat) (f : BitVec 32 → Body) : Except Reject Body :=
  if fld w 41 10 = 0 ∧ fld w 0 9 = 0 then .ok (f (bv w 9 32)) else .error .zeroField

/-- What a slot word holds, before the checks of its operands. -/
def decodeRaw (s : Slot) (w : Nat) : Except Reject Body :=
  match fld w 56 8 with
  | 0xE0 => xcopyForm w
  | 0xF0 => extForm w
  | op =>
    if s = .k ∧ op = 0x64 then kiBody w .trap
    else if s = .k ∧ op = 0x66 then kiBody w .brk
    else if s = .k ∧ op = 0x67 then kiBody w .esc
    else
      match decodeMap s w with
      | .error e => .error e
      | .ok i => .ok (.op i)

/-- Slot `s` accepts what the word holds. -/
def Body.wfIn (s : Slot) : Body → Bool
  | .op i => Sys2Proof.wfIn s i
  | .trap _ | .brk _ | .esc _ => s == .k
  | .xcopy df d a => xcopyFits s df d a
  | .xcopyLane df d a _ => xcopyFits s df d a && laneFits s df
  | .xcopyBcast df d a => xcopyFits s df d a && (df == .v || df == .w)
  | .ext _ => true

/-- The decoder of a valid slot word (R48-R62): total, refusing by name. -/
def decodeSlot (s : Slot) (w : Nat) : Except Reject SlotOp :=
  if bv w 51 4 = 0 ∧ bit1 w 55 = true then .error .reservedGuard
  else
    match decodeRaw s w with
    | .error e => .error e
    | .ok b => if b.wfIn s then .ok { gn := bit1 w 55, gp := bv w 51 4, body := b } else .error .operand

/-- The bundle header (R45). -/
def decodeHeader (w : Nat) : Header :=
  { wait := bv w 54 10, sv := bv w 49 5, le := bit1 w 48, rt := bit1 w 47, sg := bit1 w 46, cstamp := bv w 16 24,
    reserved := decide (fld w 40 6 ≠ 0 ∨ fld w 0 16 ≠ 0) }

/-- The SV bit of a slot (R45). -/
def Header.valid (h : Header) (s : Slot) : Bool :=
  match s with
  | .k => h.sv.getLsbD 4 | .m => h.sv.getLsbD 3 | .v => h.sv.getLsbD 2 | .w => h.sv.getLsbD 1 | .x => h.sv.getLsbD 0

/-- The word of slot `s` in a bundle of 384 bits (R44). -/
def slotWord (bundle : Nat) (s : Slot) : Nat :=
  match s with
  | .k => fld bundle 64 64 | .m => fld bundle 128 64 | .v => fld bundle 192 64 | .w => fld bundle 256 64
  | .x => fld bundle 320 64

/-- The slots in bundle order (R12). -/
def allSlots : List Slot := [.k, .m, .v, .w, .x]

/-- The valid slots of a bundle, each with its word. -/
def validWords (bundle : Nat) : List (Slot × Nat) :=
  (allSlots.filter (decodeHeader (fld bundle 0 64)).valid).map fun s => (s, slotWord bundle s)

/-- The slot that a lone slot word is read in: the first whose opcode map accepts it. -/
def loneSlot (w : Nat) : Option Slot :=
  allSlots.find? fun s => match decodeSlot s w with | .ok _ => true | .error _ => false

/-- The slot and word of an instruction that the host lays out: a slot word, or the first valid slot of a bundle. -/
def tableSlot (nbits w : Nat) : Option (Slot × Nat) :=
  if nbits ≤ 64 then (loneSlot w).map fun s => (s, w)
  else (validWords w).head?

/-- The instruction that the decoder reads from the bits the opcode table numbers. -/
noncomputable def decodeTableWord (nbits w : Nat) : Option Instr :=
  match tableSlot nbits w with
  | none => none
  | some (s, v) =>
    match decodeSlot s v with
    | .ok o => some o.body.instr
    | .error _ => none

/-! ## Command words (R194, Table 9.2) -/

/-- The words a command takes, by its OPC; none for an unlisted OPC. -/
def commandWords (opc : Nat) : Option Nat :=
  match opc with
  | 0x01 => some 1 | 0x02 => some 2 | 0x08 => some 1 | 0x09 => some 1 | 0x0A => some 2 | 0x10 => some 1
  | 0x11 => some 1 | 0x18 => some 4 | 0x20 => some 3 | 0x21 => some 2 | 0x28 => some 2 | 0x30 => some 2
  | 0x31 => some 2 | 0x38 => some 1 | 0x39 => some 1
  | _ => none

/-- The privileged commands (Table 9.2). -/
def commandPriv (opc : Nat) : Bool :=
  match opc with
  | 0x20 | 0x21 | 0x30 | 0x38 | 0x39 => true
  | _ => false

/-- A command from its words; none halts the queue with error 0x01. -/
def decodeCommand (ws : List Nat) : Option Command :=
  match ws with
  | [a] =>
    match fld a 56 8 with
    | 0x01 => if fld a 52 3 = 0 ∧ fld a 0 8 = 0 then some (.launch (bit1 a 55) (bv a 48 4) (bv a 0 48)) else none
    | 0x08 => if fld a 32 24 = 0 then some (.loopc (bv a 0 32)) else none
    | 0x09 => if fld a 0 56 = 0 then some .endc else none
    | 0x10 => if fld a 32 16 = 0 then some (.waittok (bv a 48 8) (bv a 0 32)) else none
    | 0x11 => if fld a 52 4 = 0 ∧ fld a 32 16 = 0 then some (.sigtok (bv a 48 4) (bv a 0 32)) else none
    | 0x38 => if fld a 15 41 = 0 then some (.retire (bv a 0 15)) else none
    | 0x39 => if fld a 15 37 = 0 then some (.selftest (bv a 52 4) (bv a 0 15)) else none
    | _ => none
  | [a, b] =>
    match fld a 56 8 with
    | 0x02 =>
      if fld a 52 3 = 0 ∧ fld a 0 8 = 0 ∧ fld b 48 16 = 0 ∧ fld b 0 3 = 0 then
        some (.launchi (bit1 a 55) (bv a 48 4) (bv a 0 48) (bv b 0 48)) else none
    | 0x0A =>
      if fld a 54 2 = 0 ∧ fld a 48 4 ≠ 0 ∧ fld a 0 3 = 0 then
        some (.ifmem (bv a 52 2) (bv a 48 4) (bv a 0 48) (bv b 0 64)) else none
    | 0x21 => if fld a 48 8 = 0 then some (.inval (bv a 0 48) (bv b 0 64)) else none
    | 0x28 => if fld a 48 8 = 0 ∧ fld b 48 16 = 0 then some (.manifest (bv a 0 48) (bv b 0 48)) else none
    | 0x30 => if fld a 16 40 = 0 ∧ fld b 48 16 = 0 then some (.preempt (bv a 0 16) (bv b 0 48)) else none
    | 0x31 =>
      if fld a 52 3 = 0 ∧ fld b 48 16 = 0 then
        some (.resume (bit1 a 55) (bv a 48 4) (bv a 0 48) (bv b 0 48)) else none
    | _ => none
  | [a, b, c] =>
    match fld a 56 8 with
    | 0x20 =>
      if fld a 48 8 = 0 ∧ fld a 0 21 = 0 then some (.mapPages (bv a 0 48) (bv b 0 64) (bv c 0 64)) else none
    | _ => none
  | [a, b, c, d] =>
    match fld a 56 8 with
    | 0x18 =>
      if fld a 52 2 = 0 ∧ fld a 0 48 = 0 ∧ fld c 48 16 = 0 ∧ fld d 0 6 = 0 ∧ fld d 0 64 ≤ 2 ^ 32 then
        some (.copyht (bit1 a 55) (bv a 48 4) (bit1 a 54) (bv b 0 64) (bv c 0 48) (bv d 0 64)) else none
    | _ => none
  | _ => none

/-! ## The encoder of slot words -/

def nat (b : Bool) : Nat := bitOf b

/-- OP in [63:56]. -/
def opW (op : Nat) : Nat := op * 2 ^ 56

def eKR (op : Nat) (d a b : BitVec 5) : Nat :=
  opW op + d.toNat * 2 ^ 46 + a.toNat * 2 ^ 41 + b.toNat * 2 ^ 36

def eKI (op : Nat) (d a : BitVec 5) (imm : BitVec 32) : Nat :=
  opW op + d.toNat * 2 ^ 46 + a.toNat * 2 ^ 41 + imm.toNat * 2 ^ 9

def eKC (op : Nat) (pd : BitVec 4) (a b : BitVec 5) (cond : Nat) (imm : BitVec 24) : Nat :=
  opW op + pd.toNat * 2 ^ 47 + a.toNat * 2 ^ 42 + b.toNat * 2 ^ 37 + cond * 2 ^ 34 + imm.toNat * 2 ^ 9

def eKP (op : Nat) (pd pa pb : BitVec 4) : Nat :=
  opW op + pd.toNat * 2 ^ 47 + pa.toNat * 2 ^ 43 + pb.toNat * 2 ^ 39

def eKB (op : Nat) (a : BitVec 5) (off : BitVec 24) (lvl : BitVec 4) (imm : BitVec 18) : Nat :=
  opW op + a.toNat * 2 ^ 46 + off.toNat * 2 ^ 22 + lvl.toNat * 2 ^ 18 + imm.toNat

def eKS (op : Nat) (d a : BitVec 5) (n : BitVec 12) (imm : BitVec 16) : Nat :=
  opW op + d.toNat * 2 ^ 46 + a.toNat * 2 ^ 41 + n.toNat * 2 ^ 29 + imm.toNat * 2 ^ 13

def eLock (p : BitVec 4) (vote : Nat) (round win : Bool) (bound : BitVec 18) : Nat :=
  opW 0x54 + p.toNat * 2 ^ 46 + nat round * 2 ^ 21 + nat win * 2 ^ 20 + vote * 2 ^ 18 + bound.toNat

def eXcopy (df : DFile) (d a : BitVec 10) (lane : BitVec 4) (mode : Nat) : Nat :=
  opW 0xE0 + codeDFile df * 2 ^ 48 + d.toNat * 2 ^ 38 + a.toNat * 2 ^ 28 + lane.toNat * 2 ^ 24 + mode * 2 ^ 22

def eMA (op : Nat) (d a : BitVec 5) (imm : BitVec 32) : Nat :=
  opW op + d.toNat * 2 ^ 46 + a.toNat * 2 ^ 41 + imm.toNat * 2 ^ 4

def eML (op : Nat) (m : MemOp) (view : Nat) (aux : BitVec 5) : Nat :=
  opW op + m.base.toNat * 2 ^ 46 + codeFile m.file * 2 ^ 44 + m.reg.toNat * 2 ^ 34 + m.off.toNat * 2 ^ 10 +
    nat m.post * 2 ^ 9 + view * 2 ^ 6 + aux.toNat * 2

def eMX (op : Nat) (f : VFile) (r : BitVec 10) : Nat := opW op + codeVFile f * 2 ^ 44 + r.toNat * 2 ^ 34

def eVR (op : Nat) (d a b c : BitVec 10) (t rm sat var : Nat) : Nat :=
  opW op + d.toNat * 2 ^ 41 + a.toNat * 2 ^ 31 + b.toNat * 2 ^ 21 + c.toNat * 2 ^ 11 + t * 2 ^ 8 + rm * 2 ^ 5 +
    sat * 2 ^ 4 + var

def eVI (op : Nat) (d a : BitVec 10) (imm : BitVec 23) (t : IType) : Nat :=
  opW op + d.toNat * 2 ^ 41 + a.toNat * 2 ^ 31 + imm.toNat * 2 ^ 8 + codeIType t * 2 ^ 5

def eVC (d a : BitVec 10) (df sf : Fmt) (rm : RMode) (sat : Bool) : Nat :=
  opW 0x38 + d.toNat * 2 ^ 41 + a.toNat * 2 ^ 31 + codeFmt df * 2 ^ 17 + codeFmt sf * 2 ^ 13 + codeRMode rm * 2 ^ 5 +
    nat sat * 2 ^ 4

def eXR (op : Nat) (d a : BitVec 4) (imm : BitVec 32) : Nat :=
  opW op + d.toNat * 2 ^ 47 + a.toNat * 2 ^ 43 + imm.toNat * 2 ^ 11

def eXC (op : Nat) (ch : BitVec 8) (xs : BitVec 4) (var : Nat) (bound : BitVec 20) : Nat :=
  opW op + ch.toNat * 2 ^ 43 + xs.toNat * 2 ^ 39 + var * 2 ^ 36 + bound.toNat

def eXP (op : Nat) (ph : BitVec 6) (mode : Nat) (bound : BitVec 20) : Nat :=
  opW op + ph.toNat * 2 ^ 45 + mode * 2 ^ 43 + bound.toNat

def eXS (op : Nat) (st : BitVec 3) (bound : BitVec 20) : Nat := opW op + st.toNat * 2 ^ 48 + bound.toNat

def eXM (op : Nat) (slot : BitVec 4) (lra lrb : Bool) (bound : BitVec 20) : Nat :=
  opW op + slot.toNat * 2 ^ 46 + nat lra * 2 ^ 33 + nat lrb * 2 ^ 32 + bound.toNat

def eXQ (op : Nat) (o : QuayOp) (aop : Nat) : Nat :=
  opW op + o.q.toNat * 2 ^ 49 + o.xd.toNat * 2 ^ 45 + o.xa.toNat * 2 ^ 41 + o.xb.toNat * 2 ^ 37 + nat o.tp * 2 ^ 36 +
    nat o.tw * 2 ^ 35 + o.tid.toNat * 2 ^ 33 + aop * 2 ^ 29 + o.bound.toNat

def eXK (op : Nat) (xa xd : BitVec 4) (bound : BitVec 20) : Nat :=
  opW op + xa.toNat * 2 ^ 47 + xd.toNat * 2 ^ 43 + bound.toNat

def eXO (op : Nat) (och : BitVec 7) (xa : BitVec 4) (gap bound : BitVec 20) : Nat :=
  opW op + och.toNat * 2 ^ 44 + xa.toNat * 2 ^ 40 + gap.toNat * 2 ^ 20 + bound.toNat

def eI (op : Nat) (d a b : BitVec 10) (t : IType) (sat : Bool) (var : Nat) : Nat :=
  eVR op d a b 0 (codeIType t) 0 (nat sat) var

def eF (op : Nat) (d a b : BitVec 10) (t : FType) (var : Nat) : Nat := eVR op d a b 0 (codeFType t) 0 0 var

def eFR (op : Nat) (d a b c : BitVec 10) (t : FType) (rm : RMode) : Nat :=
  eVR op d a b c (codeFType t) (codeRMode rm) 0 0

/-- The bits of a K-slot instruction but for its guard. -/
def encodeK : Instr → Option Nat
  | .add d a b => some (eKR 0x01 d a b) | .sub d a b => some (eKR 0x02 d a b)
  | .and d a b => some (eKR 0x03 d a b) | .or d a b => some (eKR 0x04 d a b)
  | .xor d a b => some (eKR 0x05 d a b) | .andn d a b => some (eKR 0x06 d a b)
  | .shl d a b => some (eKR 0x07 d a b) | .shr d a b => some (eKR 0x08 d a b)
  | .sra d a b => some (eKR 0x09 d a b) | .min d a b => some (eKR 0x0A d a b)
  | .max d a b => some (eKR 0x0B d a b) | .minn d a b => some (eKR 0x0C d a b)
  | .maxn d a b => some (eKR 0x0D d a b) | .mul d a b => some (eKR 0x0E d a b)
  | .mulh d a b => some (eKR 0x0F d a b) | .mulhn d a b => some (eKR 0x10 d a b)
  | .div d a b => some (eKR 0x11 d a b) | .divn d a b => some (eKR 0x12 d a b)
  | .rem d a b => some (eKR 0x13 d a b) | .remn d a b => some (eKR 0x14 d a b)
  | .clz d a => some (eKR 0x15 d a 0) | .ctz d a => some (eKR 0x16 d a 0) | .popc d a => some (eKR 0x17 d a 0)
  | .sel d a b ps => some (eKR 0x18 d a b + ps.toNat * 2 ^ 32)
  | .addi d a imm => some (eKI 0x20 d a imm) | .andi d a imm => some (eKI 0x21 d a imm)
  | .ori d a imm => some (eKI 0x22 d a imm) | .xori d a imm => some (eKI 0x23 d a imm)
  | .shli d a imm => some (eKI 0x24 d a imm) | .shri d a imm => some (eKI 0x25 d a imm)
  | .srai d a imm => some (eKI 0x26 d a imm) | .movi d imm => some (eKI 0x27 d 0 imm)
  | .muli d a imm => some (eKI 0x28 d a imm)
  | .cmpEq pd a b => some (eKC 0x30 pd a b 0 0) | .cmpNe pd a b => some (eKC 0x30 pd a b 1 0)
  | .cmpLt pd a b => some (eKC 0x30 pd a b 2 0) | .cmpLe pd a b => some (eKC 0x30 pd a b 3 0)
  | .cmpLtn pd a b => some (eKC 0x30 pd a b 4 0) | .cmpLen pd a b => some (eKC 0x30 pd a b 5 0)
  | .cmpiEq pd a imm => some (eKC 0x31 pd a 0 0 imm) | .cmpiNe pd a imm => some (eKC 0x31 pd a 0 1 imm)
  | .cmpiLt pd a imm => some (eKC 0x31 pd a 0 2 imm) | .cmpiLe pd a imm => some (eKC 0x31 pd a 0 3 imm)
  | .cmpiLtn pd a imm => some (eKC 0x31 pd a 0 4 imm) | .cmpiLen pd a imm => some (eKC 0x31 pd a 0 5 imm)
  | .pand pd pa pb => some (eKP 0x32 pd pa pb) | .por pd pa pb => some (eKP 0x33 pd pa pb)
  | .pxor pd pa pb => some (eKP 0x34 pd pa pb) | .pandn pd pa pb => some (eKP 0x35 pd pa pb)
  | .pset a => some (eKR 0x36 0 a 0) | .pget d => some (eKR 0x37 d 0 0)
  | .br off => some (eKB 0x40 0 off 0 0) | .jmp a => some (eKB 0x41 a 0 0 0)
  | .call off => some (eKB 0x42 0 off 0 0) | .ret a => some (eKB 0x43 a 0 0 0)
  | .loop a off => some (eKB 0x44 a off 0 0) | .loopi off n => some (eKB 0x45 0 off 0 n)
  | .lexit off => some (eKB 0x46 0 off 0 0) | .lidx d lvl => some (eKB 0x47 d 0 lvl 0)
  | .rotset imm => some (eKI 0x48 0 0 imm)
  | .tick d => some (eKR 0x50 d 0 0) | .scyc d => some (eKR 0x51 d 0 0) | .tadj => some (opW 0x52)
  | .sleept a => some (eKR 0x53 0 a 0)
  | .lock r w b => some (eLock 0 0 r w b)
  | .lockAnd p r w b => some (eLock p 1 r w b)
  | .lockOr p r w b => some (eLock p 2 r w b)
  | .phase d => some (eKR 0x55 d 0 0)
  | .endProg b => some (eKB 0x56 0 0 0 b)
  | .lkstat d => some (eKR 0x57 d 0 0)
  | .csrr d n => some (eKS 0x60 d 0 n 0)
  | .csrw d a n imm => some (eKS 0x61 d a n imm) | .csrs d a n imm => some (eKS 0x62 d a n imm)
  | .csrc d a n imm => some (eKS 0x63 d a n imm)
  | .trap imm => some (eKI 0x64 0 0 imm)
  | .tret => some (opW 0x65) | .tretSkip => some (opW 0x65 + 2 ^ 33)
  | .brk imm => some (eKI 0x66 0 0 imm) | .esc imm => some (eKI 0x67 0 0 imm)
  | _ => none

/-- The bits of an M-slot instruction but for its guard. -/
def encodeM : Instr → Option Nat
  | .aadd d a b => some (eKR 0x01 d a b) | .asub d a b => some (eKR 0x02 d a b)
  | .aaddi d a imm => some (eMA 0x03 d a imm) | .ashli d a imm => some (eMA 0x04 d a imm)
  | .amuli d a imm => some (eMA 0x05 d a imm) | .amovi d imm => some (eMA 0x06 d 0 imm)
  | .ldb m => some (eML 0x10 m 0 0) | .ldbn m => some (eML 0x11 m 0 0)
  | .ldh m => some (eML 0x12 m 0 0) | .ldhn m => some (eML 0x13 m 0 0)
  | .ldw m => some (eML 0x14 m 0 0) | .ldwn m => some (eML 0x15 m 0 0) | .ldd m => some (eML 0x16 m 0 0)
  | .ldv m v => some (eML 0x18 m (codeView v) 0)
  | .ldvs m v s => some (eML 0x19 m (codeView v) s)
  | .ldacc m => some (eML 0x1A m 0 0)
  | .stb m => some (eML 0x20 m 0 0) | .sth m => some (eML 0x21 m 0 0) | .stw m => some (eML 0x22 m 0 0)
  | .std m => some (eML 0x23 m 0 0) | .stv m => some (eML 0x24 m 0 0)
  | .stvs m s => some (eML 0x25 m 0 s) | .stvm m s => some (eML 0x26 m 0 s)
  | .mark => some (opW 0x30)
  | .spill f r => some (eMX 0x38 f r) | .fill f r => some (eMX 0x39 f r)
  | _ => none

/-- The bits of a V- or W-slot instruction but for its guard. -/
def encodeV : Instr → Option Nat
  | .vadd d a b t s => some (eI 0x01 d a b t s 0) | .vsub d a b t s => some (eI 0x02 d a b t s 0)
  | .vmul d a b t s => some (eI 0x03 d a b t s 0) | .vmulh d a b t s => some (eI 0x04 d a b t s 0)
  | .vmin d a b t s => some (eI 0x05 d a b t s 0) | .vmax d a b t s => some (eI 0x06 d a b t s 0)
  | .vand d a b t s => some (eI 0x07 d a b t s 0) | .vor d a b t s => some (eI 0x08 d a b t s 0)
  | .vxor d a b t s => some (eI 0x09 d a b t s 0) | .vshl d a b t s => some (eI 0x0A d a b t s 0)
  | .vshr d a b t s => some (eI 0x0B d a b t s 0) | .vsra d a b t s => some (eI 0x0C d a b t s 0)
  | .vabs d a t s => some (eI 0x0D d a 0 t s 0)
  | .vcmpEq d a b t => some (eI 0x0E d a b t false 0) | .vcmpNe d a b t => some (eI 0x0E d a b t false 1)
  | .vcmpLt d a b t => some (eI 0x0E d a b t false 2) | .vcmpLe d a b t => some (eI 0x0E d a b t false 3)
  | .vcmpGt d a b t => some (eI 0x0E d a b t false 4) | .vcmpGe d a b t => some (eI 0x0E d a b t false 5)
  | .vcmpUo d a b t => some (eI 0x0E d a b t false 6) | .vcmpOrd d a b t => some (eI 0x0E d a b t false 7)
  | .vsel d a b c t => some (eVR 0x0F d a b c (codeIType t) 0 0 0)
  | .vdot4Ss d a b c s => some (eVR 0x10 d a b c 0 0 (nat s) 0)
  | .vdot4Su d a b c s => some (eVR 0x10 d a b c 0 0 (nat s) 1)
  | .vdot4Us d a b c s => some (eVR 0x10 d a b c 0 0 (nat s) 2)
  | .vdot4Uu d a b c s => some (eVR 0x10 d a b c 0 0 (nat s) 3)
  | .vaddi d a imm t => some (eVI 0x11 d a imm t) | .vshli d a imm t => some (eVI 0x12 d a imm t)
  | .vshri d a imm t => some (eVI 0x13 d a imm t) | .vsrai d a imm t => some (eVI 0x14 d a imm t)
  | .vmovi d imm t => some (eVI 0x15 d 0 imm t)
  | .vfadd d a b t r => some (eFR 0x20 d a b 0 t r) | .vfsub d a b t r => some (eFR 0x21 d a b 0 t r)
  | .vfmul d a b t r => some (eFR 0x22 d a b 0 t r)
  | .vfma d a b c t r => some (eFR 0x23 d a b c t r) | .vfms d a b c t r => some (eFR 0x24 d a b c t r)
  | .vfnma d a b c t r => some (eFR 0x25 d a b c t r)
  | .vfmin d a b t => some (eF 0x26 d a b t 0) | .vfmax d a b t => some (eF 0x27 d a b t 0)
  | .vfcmpEq d a b t => some (eF 0x28 d a b t 0) | .vfcmpNe d a b t => some (eF 0x28 d a b t 1)
  | .vfcmpLt d a b t => some (eF 0x28 d a b t 2) | .vfcmpLe d a b t => some (eF 0x28 d a b t 3)
  | .vfcmpGt d a b t => some (eF 0x28 d a b t 4) | .vfcmpGe d a b t => some (eF 0x28 d a b t 5)
  | .vfcmpUo d a b t => some (eF 0x28 d a b t 6) | .vfcmpOrd d a b t => some (eF 0x28 d a b t 7)
  | .vfsgnCopy d a b t => some (eF 0x29 d a b t 0) | .vfsgnNcopy d a b t => some (eF 0x29 d a b t 1)
  | .vfsgnXor d a b t => some (eF 0x29 d a b t 2)
  | .vfsgnAbs d a t => some (eF 0x29 d a 0 t 3) | .vfsgnNeg d a t => some (eF 0x29 d a 0 t 4)
  | .vfrcp d a t => some (eF 0x2A d a 0 t 0) | .vfrsq d a t => some (eF 0x2B d a 0 t 0)
  | .vfsqrt d a t r => some (eFR 0x2C d a 0 0 t r) | .vfdiv d a b t r => some (eFR 0x2D d a b 0 t r)
  | .vfexp2 d a t => some (eF 0x2E d a 0 t 0) | .vflog2 d a t => some (eF 0x2F d a 0 t 0)
  | .vfactTanh d a t => some (eF 0x30 d a 0 t 0) | .vfactSigm d a t => some (eF 0x30 d a 0 t 1)
  | .vfactGelu d a t => some (eF 0x30 d a 0 t 2) | .vfactSilu d a t => some (eF 0x30 d a 0 t 3)
  | .vfcls d a t => some (eF 0x31 d a 0 t 0)
  | .vcvt d a df sf r s => some (eVC d a df sf r s)
  | .vqblkB4 d a b r => some (eVR 0x39 d a b 0 0 (codeRMode r) 0 0)
  | .vqblkB10 d a b r => some (eVR 0x39 d a b 0 0 (codeRMode r) 0 1)
  | .vdqblkB4Bf24 d a => some (eVR 0x3A d a 0 0 0 0 0 0) | .vdqblkB4Lo d a => some (eVR 0x3A d a 0 0 0 0 0 1)
  | .vdqblkB4Hi d a => some (eVR 0x3A d a 0 0 0 0 0 2) | .vdqblkB10Bf24 d a => some (eVR 0x3A d a 0 0 0 0 0 4)
  | .vdqblkB10Lo d a => some (eVR 0x3A d a 0 0 0 0 0 5) | .vdqblkB10Hi d a => some (eVR 0x3A d a 0 0 0 0 0 6)
  | .vfrnd d a t r => some (eFR 0x3B d a 0 0 t r)
  | .vredAdd d a t => some (eI 0x40 d a 0 t false 0) | .vredMax d a t => some (eI 0x40 d a 0 t false 1)
  | .vredMin d a t => some (eI 0x40 d a 0 t false 2) | .vredAnd d a t => some (eI 0x40 d a 0 t false 3)
  | .vredOr d a t => some (eI 0x40 d a 0 t false 4) | .vredXor d a t => some (eI 0x40 d a 0 t false 5)
  | .vfredSum d a t => some (eF 0x41 d a 0 t 0) | .vfredMax d a t => some (eF 0x41 d a 0 t 1)
  | .vfredMin d a t => some (eF 0x41 d a 0 t 2)
  | .vperm d a b t => some (eI 0x42 d a b t false 0)
  | .vbcast d a t l => some (eI 0x43 d a 0 t false l.toNat)
  | .vslide d a b t n => some (eI 0x44 d a b t false n.toNat)
  | .vzipLo d a b t => some (eI 0x45 d a b t false 0) | .vzipHi d a b t => some (eI 0x45 d a b t false 1)
  | .vzipEven d a b t => some (eI 0x45 d a b t false 2) | .vzipOdd d a b t => some (eI 0x45 d a b t false 3)
  | .vrng d t => some (eI 0x48 d 0 0 t false 0)
  | .vmov d a => some (eVR 0x50 d a 0 0 0 0 0 0)
  | _ => none

/-- The bits of an X-slot instruction but for its guard. -/
def encodeX : Instr → Option Nat
  | .xmovi d imm => some (eXR 0x01 d 0 imm) | .xaddi d a imm => some (eXR 0x02 d a imm)
  | .send ch xs b => some (eXC 0x10 ch xs 0 b) | .recv ch xs b => some (eXC 0x11 ch xs 0 b)
  | .sendrAddF32 ch xs b => some (eXC 0x12 ch xs 0 b) | .sendrAddBf16 ch xs b => some (eXC 0x12 ch xs 1 b)
  | .sendrMaxF32 ch xs b => some (eXC 0x12 ch xs 2 b) | .sendrMinF32 ch xs b => some (eXC 0x12 ch xs 3 b)
  | .sendrAddI32 ch xs b => some (eXC 0x12 ch xs 4 b) | .sendrXor ch xs b => some (eXC 0x12 ch xs 5 b)
  | .recvr ch xs b => some (eXC 0x13 ch xs 0 b) | .chst ch xs => some (eXC 0x14 ch xs 0 0)
  | .pregSw ph => some (eXP 0x20 ph 0 0) | .pregSo ph => some (eXP 0x20 ph 1 0)
  | .pregWo ph => some (eXP 0x20 ph 2 0)
  | .pdrop ph => some (eXP 0x21 ph 0 0) | .psig ph => some (eXP 0x22 ph 0 0) | .pwait ph b => some (eXP 0x23 ph 0 b)
  | .scfg st f xa => some (eXS 0x30 st 0 + f.toNat * 2 ^ 44 + xa.toNat * 2 ^ 40)
  | .sbind st f r o =>
    some (eXS 0x31 st 0 + (match f with | .v => 0 | .w => 1) * 2 ^ 39 + r.toNat * 2 ^ 29 + nat o * 2 ^ 28)
  | .sfree st => some (eXS 0x32 st 0) | .swait st b => some (eXS 0x33 st b) | .sgo st => some (eXS 0x34 st 0)
  | .omclaim d => some (eXR 0x40 d 0 0) | .omrel a => some (eXR 0x41 0 a 0)
  | .mcfg l f xa => some (opW 0x42 + xa.toNat * 2 ^ 42 + l.toNat * 2 ^ 38 + f.toNat * 2 ^ 34)
  | .mgo la lb b => some (eXM 0x43 0 la lb b)
  | .mswap b => some (eXM 0x44 0 false false b) | .mwait b => some (eXM 0x45 0 false false b)
  | .mred a b => some (eXM 0x46 a false false b) | .mclr a => some (eXM 0x47 a false false 0)
  | .mstat d => some (eXR 0x48 d 0 0)
  | .qget o => some (eXQ 0x50 o 0) | .qput o => some (eXQ 0x51 o 0) | .qgath o => some (eXQ 0x52 o 0)
  | .qatomAdd o => some (eXQ 0x53 o 0) | .qatomMin o => some (eXQ 0x53 o 1) | .qatomMax o => some (eXQ 0x53 o 2)
  | .qatomMinn o => some (eXQ 0x53 o 3) | .qatomMaxn o => some (eXQ 0x53 o 4) | .qatomSwap o => some (eXQ 0x53 o 5)
  | .qatomCas o => some (eXQ 0x53 o 6) | .qatomAnd o => some (eXQ 0x53 o 7) | .qatomOr o => some (eXQ 0x53 o 8)
  | .qatomXor o => some (eXQ 0x53 o 9)
  | .qmark q => some (opW 0x54 + q.toNat * 2 ^ 49)
  | .qtpop q xd tid b => some (opW 0x55 + q.toNat * 2 ^ 49 + xd.toNat * 2 ^ 45 + tid.toNat * 2 ^ 33 + b.toNat)
  | .qwait q xd b => some (opW 0x56 + q.toNat * 2 ^ 49 + xd.toNat * 2 ^ 45 + b.toNat)
  | .coll xa xd => some (eXK 0x60 xa xd 0) | .cwait xd b => some (eXK 0x61 0 xd b)
  | .osend o xa b => some (eXO 0x70 o xa 0 b) | .orecv o xa b => some (eXO 0x71 o xa 0 b)
  | .ogap g => some (eXO 0x72 0 0 g 0) | .over a => some (eXR 0x73 0 a 0)
  | _ => none

/-- XCOPY and EXT, the forms of every slot. -/
def encodeAny : Instr → Option Nat
  | .xcopy df d a => some (eXcopy df d a 0 0)
  | .xcopyLane df d a l => some (eXcopy df d a l 1)
  | .xcopyBcast df d a => some (eXcopy df d a 0 2)
  | .ext p => some (opW 0xF0 + p.toNat)
  | _ => none

/-- The bits of a slot instruction but for its guard; none for what is no slot instruction. -/
def encodeBody (s : Slot) (i : Instr) : Option Nat :=
  match encodeAny i with
  | some w => some w
  | none =>
    match s with
    | .k => encodeK i
    | .m => encodeM i
    | .v | .w => encodeV i
    | .x => encodeX i

/-- The slot word of a guarded instruction (R48). -/
def encode (s : Slot) (gn : Bool) (gp : BitVec 4) (i : Instr) : Option Nat :=
  (encodeBody s i).map fun b => b + nat gn * 2 ^ 55 + gp.toNat * 2 ^ 51

/-! ## The encoder of commands (R194, Table 9.2) -/

/-- SIG in [55], TOKEN in [51:48]. -/
def eSig (sig : Bool) (tok : BitVec 4) : Nat := nat sig * 2 ^ 55 + tok.toNat * 2 ^ 48

/-- The words of a command, the first at the head. -/
def encodeCommand : Command → List Nat
  | .launch sig tok hdr => [opW 0x01 + eSig sig tok + hdr.toNat]
  | .launchi sig tok hdr size => [opW 0x02 + eSig sig tok + hdr.toNat, size.toNat]
  | .loopc count => [opW 0x08 + count.toNat]
  | .endc => [opW 0x09]
  | .ifmem cond n addr value => [opW 0x0A + cond.toNat * 2 ^ 52 + n.toNat * 2 ^ 48 + addr.toNat, value.toNat]
  | .waittok tok value => [opW 0x10 + tok.toNat * 2 ^ 48 + value.toNat]
  | .sigtok tok addend => [opW 0x11 + tok.toNat * 2 ^ 48 + addend.toNat]
  | .copyht sig tok dir host dev len =>
    [opW 0x18 + eSig sig tok + nat dir * 2 ^ 54, host.toNat, dev.toNat, len.toNat]
  | .mapPages va entry count => [opW 0x20 + va.toNat, entry.toNat, count.toNat]
  | .inval va count => [opW 0x21 + va.toNat, count.toNat]
  | .manifest stored result => [opW 0x28 + stored.toNat, result.toNat]
  | .preempt pid save => [opW 0x30 + pid.toNat, save.toNat]
  | .resume sig tok hdr save => [opW 0x31 + eSig sig tok + hdr.toNat, save.toNat]
  | .retire tile => [opW 0x38 + tile.toNat]
  | .selftest scope tile => [opW 0x39 + scope.toNat * 2 ^ 52 + tile.toNat]

end Sys2Proof
end

