-- ==== Sys2Proof/Config.lean ====
section
/-! DEFINITION. What the spec leaves open: constants without a body, applied to the free counter of the state (log entry 3)
or to the operands they depend on. No value of any of them can be computed or proved. -/

namespace Sys2Proof.Config

/-- The cycles the command processor takes before it acts on what it is due to do (09 introduction: its work is not timed
in cycles), by free counter. -/
opaque hartDelay : Nat → Nat

/-- The cycles the command processor takes to load a launch's tiles, from placement to the last load (R204). -/
opaque loadDelay : Nat → Nat

/-- The cycles a COPYHT, a MANIFEST or another transfer of the command processor takes. -/
opaque copyDelay : Nat → Nat

/-- Cycles from the last member's COLL to the sampling of the contributions, between two units, and from the last to the commit cycle, by
what they depend on: the firmware, the image, the shape, the cycle since the start tick and the collective (R339, R433). -/
opaque collectiveDelay : List Nat → Nat

/-- What the units of a staging range hold, by the descriptor and the contributions read so far, and by rank, unit and cycle (R339, R433). -/
opaque stagingUnit : List Byte → List (List Byte) → List Nat → BitVec 512

/-- LKSTAT.WAITED of a core that no LOCK kept waiting, by the image, the relative tile, the core, the phase and the cycle since the start tick
(Table 8.5, R433). -/
opaque lockWaited : List Nat → Nat

/-- Bits of a record, a word or a register that the spec leaves unstated, by free counter. -/
opaque freeBits : Nat → BitVec 512

/-- What a rebuild puts into the tier, the page tables and the handles of the spare, by free counter: bytes by address, leaves by context ×
2^27 + page, base and length by context × 2^10 + slot (R421, R422). -/
opaque rebuiltBytes : Nat → List (Nat × BitVec 8)
opaque rebuiltPages : Nat → List (Nat × BitVec 64)
opaque rebuiltHandles : Nat → List (Nat × Nat × Nat)

/-- What another module's participant contributes to a collective, by free counter, rank and 64-byte unit (R336, R337). -/
opaque groupData : Nat → Nat → Nat → BitVec 512

/-- The latest arrival, in cycles, of the members that a group phaser has on other modules (R410), by free counter. -/
opaque groupArrival : Nat → Nat

/-- The cycles of a lane's retraining, a loss notice's delay and the group phases until a swap, by free counter (R405, R407,
R408). -/
opaque opticalDelay : Nat → Nat

/-- What the members that a group phaser has on other modules contribute to a lock, by free counter: [0] some of them set ROUND,
[1] WIN, [3:2] the modes they cast (0 none, 1 AND, 2 OR, 3 different ones), [4] their AND, [5] their OR. -/
opaque groupVote : Nat → Nat

/-- The cycles by which the maintenance of other modules' partitions lengthens a group lock (R374), by free counter. -/
opaque groupMaintenance : Nat → Nat

/-- A targeted test of a row, or a self-test, fails (R375, R388), by free counter. -/
opaque testFails : Nat → Bool

/-- The spare rows of a bank that bring-up has assigned, by free value and physical tile × 2^24 + bank (R372, R428). -/
opaque rowsAtBringUp : Nat → Nat → Nat

/-- The depth that source port `s` of the demand domain reports towards port `d`, where the port is another module's, by free
counter (R402). -/
opaque depth : Nat → Nat → Nat → Nat

/-- A wavelength of another module's port that is scheduled, by port of the domain and wavelength (R403). -/
opaque scheduled : Nat → Nat → Bool

/-- SHAKE256 with a 512-bit result (R198, R430): named by the spec and not defined there. -/
opaque shake256 : List Byte → BitVec 512

/-- A Falcon-1024 signature of a digest by an identity (R431). -/
opaque falcon : BitVec 512 → BitVec 512 → List Byte

/-- The bytes that a manifest's hash takes for a page's FMT, GEOM and POISON (R432). -/
opaque pageBytes : Nat → Nat → Nat → List Byte

/-- The bytes of the defect map: the dead fields and, by sheaf row of a field, the dead masks (R428, R431). -/
opaque defectBytes : List Nat → List (Nat × Nat) → List Byte

/-- A firmware image carries a sound signature and the vendor's key (R428). -/
opaque firmwareValid : List Byte → Bool

/-- What the bytes of host memory from HIST hold as a history, for an identity: the dead tiles, the dead fields and MAPVER; none where they
do not verify (R429). -/
opaque history : List (Nat × BitVec 8) → BitVec 512 → Option (List Nat × List Nat × Nat)

/-- The helper data that an enrolment writes, 4,096 bytes, by free counter (R430). -/
opaque helperData : Nat → Nat

/-- The public key of an identity (R430, R431). -/
opaque publicKey : BitVec 512 → List Byte

/-- The key pair derived from the response of the module's physically unclonable function, corrected by helper data (R430). -/
opaque puf : Nat → BitVec 512

end Sys2Proof.Config
end

