-- ==== Sys2Proof/Machine/Numbers.lean ====
section
/-! DEFINITION. Number formats, rounding, random words, block formats and orders of summation (03 R70-R86). Values are
exact rationals; a flag set is a number with NV 16, DZ 8, OF 4, UF 2, NX 1 (Table 3.6). -/

namespace Sys2Proof.Machine

/-! ## Helpers on integers (Table 3.1) -/

/-- 2^e for an integer e. -/
def pow2 (e : Int) : Rat := if 0 ≤ e then ((2 ^ e.toNat : Nat) : Rat) else 1 / ((2 ^ (-e).toNat : Nat) : Rat)

/-- The low `w` bits of an integer as an unsigned number: bits(v, w-1, 0). -/
def zextI (v : Int) (w : Nat) : Nat := (v % (2 ^ w : Nat)).toNat

/-- The low `w` bits of a number read as a signed number. -/
def sextN (v w : Nat) : Int :=
  let m := v % 2 ^ w
  if m < 2 ^ (w - 1) then (m : Int) else (m : Int) - (2 ^ w : Nat)

/-- floor(log2 q) of a positive rational. -/
def floorLog2 (q : Rat) : Int :=
  let n := q.num.natAbs
  let l : Int := (Nat.log2 n : Int) - (Nat.log2 q.den : Int)
  if pow2 l ≤ q then l else l - 1

/-- The integer below a rational, as a number; the rational is not negative. -/
def floorN (q : Rat) : Nat := q.num.natAbs / q.den

/-- The integer square root, one binary digit at a time from digit `k - 1` down. -/
def isqrtFrom (n : Nat) : Nat → Nat → Nat
  | 0, r => r
  | k + 1, r => isqrtFrom n k (if (r + 2 ^ k) * (r + 2 ^ k) ≤ n then r + 2 ^ k else r)

def isqrt (n : Nat) : Nat := isqrtFrom n (Nat.log2 n / 2 + 1) 0

/-! ## Rounding to an integer (R74) -/

/-- round_int(v, rm, neg, el), with `rnd` the random word of element el. -/
def roundInt (v : Rat) (rm : RMode) (neg : Bool) (rnd : Nat) : Nat :=
  let f := floorN v
  let r := v - (f : Rat)
  match rm with
  | .rne | .dyn => if r < 1 / 2 then f else if 1 / 2 < r then f + 1 else if f % 2 = 0 then f else f + 1
  | .rz => f
  | .rd => if neg ∧ r ≠ 0 then f + 1 else f
  | .ru => if ¬ neg ∧ r ≠ 0 then f + 1 else f
  | .rs => if floorN (r * 65536) > rnd then f + 1 else f

/-! ## Floating-point formats (R71, Table 3.2) -/

/-- The value of a pattern: a NaN (signalling or quiet), an infinity, a zero, or a nonzero rational. -/
inductive FVal where
  | nan (sig : Bool)
  | inf (neg : Bool)
  | zero (neg : Bool)
  | fin (q : Rat)
  deriving DecidableEq

/-- Fraction bits. -/
def Fmt.fracBits : Fmt → Nat
  | .f32 => 23 | .bf16 => 7 | .f16 => 10 | .e4m3 => 3 | .e5m2 => 2 | _ => 0

/-- Exponent bits. -/
def Fmt.expBits : Fmt → Nat
  | .f32 => 8 | .bf16 => 8 | .f16 => 5 | .e4m3 => 4 | .e5m2 => 5 | _ => 0

def Fmt.bias : Fmt → Nat
  | .f32 => 127 | .bf16 => 127 | .f16 => 15 | .e4m3 => 7 | .e5m2 => 15 | _ => 0

/-- Width in bits. -/
def Fmt.width : Fmt → Nat
  | .f32 | .i32 | .n32 => 32
  | .bf16 | .f16 | .i16 | .n16 => 16
  | .e4m3 | .e5m2 | .i8 | .n8 => 8

def Fmt.isInt : Fmt → Bool
  | .i32 | .i16 | .i8 | .n32 | .n16 | .n8 => true
  | _ => false

def Fmt.signed : Fmt → Bool
  | .i32 | .i16 | .i8 => true
  | _ => false

def FType.fmt : FType → Fmt
  | .f32 => .f32 | .bf16 => .bf16 | .f16 => .f16

def IType.fmt : IType → Fmt
  | .i32 => .i32 | .i16 => .i16 | .i8 => .i8 | .n32 => .n32 | .n16 => .n16 | .n8 => .n8

def IType.width (t : IType) : Nat := Fmt.width (IType.fmt t)
def FType.width (t : FType) : Nat := Fmt.width (FType.fmt t)
def IType.signed (t : IType) : Bool := Fmt.signed (IType.fmt t)

/-- The canonical NaN (Table 3.2, R72). -/
def canonNan : Fmt → Nat
  | .f32 => 0x7FC00000 | .bf16 => 0x7FC0 | .f16 => 0x7E00 | .e4m3 => 0x7F | .e5m2 => 0x7E | _ => 0

/-- The largest finite value's pattern (Table 3.2). -/
def maxPattern : Fmt → Nat
  | .f32 => 0x7F7FFFFF | .bf16 => 0x7F7F | .f16 => 0x7BFF | .e4m3 => 0x7E | .e5m2 => 0x7B | _ => 0

/-- The exponent of the smallest normal value. -/
def Fmt.emin (f : Fmt) : Int := 1 - (Fmt.bias f : Int)

/-- decode(b, fmt) of a floating-point format (R71). -/
def decodeF (f : Fmt) (b : Nat) : FVal :=
  let p := Fmt.fracBits f
  let e := fld b p (Fmt.expBits f)
  let m := fld b 0 p
  let neg := decide (fld b (p + Fmt.expBits f) 1 = 1)
  let sgn (q : Rat) : Rat := if neg then -q else q
  let top := 2 ^ Fmt.expBits f - 1
  if e = 0 then
    if m = 0 then .zero neg else .fin (sgn ((m : Rat) * pow2 (Fmt.emin f - p)))
  else if e = top ∧ (f ≠ .e4m3 ∨ m = 7) then
    if f = .e4m3 then .nan false
    else if m = 0 then .inf neg
    else .nan (decide (fld b (p - 1) 1 = 0))
  else .fin (sgn (((2 ^ p + m : Nat) : Rat) * pow2 ((e : Int) - Fmt.bias f - p)))

/-- The sign bit of a result. -/
def signBit (f : Fmt) (neg : Bool) : Nat := if neg then 2 ^ (Fmt.width f - 1) else 0

/-- The pattern of a magnitude of `k` quanta of 2^(e - p), with e the exponent the quantum was taken from. -/
def patternOf (f : Fmt) (k : Nat) (e : Int) : Nat :=
  let p := Fmt.fracBits f
  let k2 := if k = 2 ^ (p + 1) then 2 ^ p else k
  let e2 := if k = 2 ^ (p + 1) then e + 1 else e
  if k2 < 2 ^ p then k2 else (e2 + Fmt.bias f).toNat * 2 ^ p + (k2 - 2 ^ p)

/-- The infinity of a format; E4M3 has none and takes its NaN (R75). -/
def infPattern (f : Fmt) (neg : Bool) : Nat :=
  match f with
  | .e4m3 => 0x7F
  | _ => signBit f neg + (2 ^ Fmt.expBits f - 1) * 2 ^ Fmt.fracBits f

/-- round_fmt for a floating-point format (R75): the pattern and the flags. -/
def roundF (f : Fmt) (rm : RMode) (sat : Bool) (rnd : Nat) (x : FVal) : Nat × Nat :=
  match x with
  | .nan _ => (canonNan f, 0)
  | .inf neg => (if sat then signBit f neg + maxPattern f else infPattern f neg, 0)
  | .zero neg => (signBit f neg, 0)
  | .fin q =>
    let neg := decide (q < 0)
    let a := if neg then -q else q
    let p := Fmt.fracBits f
    let e := max (floorLog2 a) (Fmt.emin f)
    let quantum := pow2 (e - p)
    let k := roundInt (a / quantum) rm neg rnd
    let r := (k : Rat) * quantum
    let largest := match decodeF f (maxPattern f) with
      | .fin m => m
      | _ => 0
    if largest < r then
      let big := signBit f neg + maxPattern f
      let inf := infPattern f neg
      (if sat then big
       else match rm with
         | .rz => big
         | .rd => if neg then inf else big
         | .ru => if neg then big else inf
         | _ => inf, 5)
    else
      let nx := decide (r ≠ a)
      let uf := decide (r ≠ a ∧ r < pow2 (Fmt.emin f))
      (signBit f neg + patternOf f k e, bitOf nx + 2 * bitOf uf)

/-! ## Integer types and conversions (R74, R78, R79) -/

/-- The least and the largest value of an integer type (Table 3.3). -/
def intMin (f : Fmt) : Int := if Fmt.signed f then -(2 ^ (Fmt.width f - 1) : Nat) else 0
def intMax (f : Fmt) : Int := if Fmt.signed f then (2 ^ (Fmt.width f - 1) : Nat) - 1 else (2 ^ Fmt.width f : Nat) - 1

/-- sat(v, t). -/
def satI (f : Fmt) (v : Int) : Int := max (intMin f) (min (intMax f) v)

/-- The pattern of wrap(v, t). -/
def wrapI (f : Fmt) (v : Int) : Nat := zextI v (Fmt.width f)

/-- The value of a pattern of an integer type. -/
def decodeI (f : Fmt) (b : Nat) : Int := if Fmt.signed f then sextN b (Fmt.width f) else ((b % 2 ^ Fmt.width f : Nat) : Int)

/-- A rational as a float value; an exact zero takes the sign given. -/
def FVal.ofRat (q : Rat) (negZero : Bool) : FVal := if q = 0 then .zero negZero else .fin q

/-- The value of a pattern of any element format. -/
def decodeAny (f : Fmt) (b : Nat) : FVal :=
  if Fmt.isInt f then FVal.ofRat (decodeI f b : Rat) false else decodeF f b

/-- A conversion of a float value to an integer type (R78). -/
def toIntF (f : Fmt) (rm : RMode) (rnd : Nat) (x : FVal) : Nat × Nat :=
  match x with
  | .nan _ => (0, 16)
  | .inf neg => (wrapI f (if neg then intMin f else intMax f), 16)
  | .zero _ => (0, 0)
  | .fin q =>
    let neg := decide (q < 0)
    let a := if neg then -q else q
    let k := roundInt a rm neg rnd
    let v : Int := if neg then -(k : Int) else k
    if v < intMin f then (wrapI f (intMin f), 16)
    else if intMax f < v then (wrapI f (intMax f), 16)
    else (wrapI f v, bitOf (decide ((k : Rat) ≠ a)))

/-- round_fmt to any element format. -/
def roundAny (f : Fmt) (rm : RMode) (sat : Bool) (rnd : Nat) (x : FVal) : Nat × Nat :=
  if Fmt.isInt f then toIntF f rm rnd x else roundF f rm sat rnd x

/-! ## Exact arithmetic on values (R72, R138) -/

def FVal.isNan : FVal → Bool
  | .nan _ => true
  | _ => false

def FVal.isSig : FVal → Bool
  | .nan s => s
  | _ => false

def FVal.neg : FVal → FVal
  | .nan s => .nan s
  | .inf n => .inf !n
  | .zero n => .zero !n
  | .fin q => .fin (-q)

/-- The sign of a value that is no NaN. -/
def FVal.sign : FVal → Bool
  | .nan _ => false
  | .inf n => n
  | .zero n => n
  | .fin q => decide (q < 0)

/-- NV for a signalling operand (R72). -/
def sigNV (xs : List FVal) : Nat := if xs.any FVal.isSig then 16 else 0

/-- An exact sum (R138): the value and its flags. `rd` says that the rounding mode is RD, for the sign of a zero sum. -/
def addV (rd : Bool) (a b : FVal) : FVal × Nat :=
  match a, b with
  | .nan s, y => (.nan false, if s || y.isSig then 16 else 0)
  | _, .nan s => (.nan false, if s then 16 else 0)
  | .inf n, .inf m => if n = m then (.inf n, 0) else (.nan false, 16)
  | .inf n, _ => (.inf n, 0)
  | _, .inf n => (.inf n, 0)
  | .zero n, .zero m => (.zero (if n = m then n else rd), 0)
  | .zero _, y => (y, 0)
  | x, .zero _ => (x, 0)
  | .fin p, .fin q => (FVal.ofRat (p + q) rd, 0)

/-- An exact product (R138, R146). -/
def mulV (a b : FVal) : FVal × Nat :=
  let n := xor a.sign b.sign
  match a, b with
  | .nan s, y => (.nan false, if s || y.isSig then 16 else 0)
  | _, .nan s => (.nan false, if s then 16 else 0)
  | .inf _, .zero _ | .zero _, .inf _ => (.nan false, 16)
  | .inf _, _ | _, .inf _ => (.inf n, 0)
  | .zero _, _ | _, .zero _ => (.zero n, 0)
  | .fin p, .fin q => (.fin (p * q), 0)

/-- An exact quotient (R146). -/
def divV (a b : FVal) : FVal × Nat :=
  let n := xor a.sign b.sign
  match a, b with
  | .nan s, y => (.nan false, if s || y.isSig then 16 else 0)
  | _, .nan s => (.nan false, if s then 16 else 0)
  | .inf _, .inf _ | .zero _, .zero _ => (.nan false, 16)
  | .inf _, _ => (.inf n, 0)
  | _, .inf _ => (.zero n, 0)
  | .zero _, _ => (.zero n, 0)
  | .fin _, .zero _ => (.inf n, 8)
  | .fin p, .fin q => (.fin (p / q), 0)

/-- The bits below the binary point that the square root keeps: enough for every rounding decision of every format. -/
def sqrtBits : Nat := 150

/-- √q on the grid of 2^-sqrtBits, moved by half a step when it lies between two points: every comparison that rounding
makes has the outcome that it has for the exact root (R146). -/
def sqrtQ (q : Rat) : Rat :=
  let n := q.num.natAbs * 4 ^ sqrtBits / q.den
  let r := isqrt n
  let exact := decide (r * r = n ∧ q.num.natAbs * 4 ^ sqrtBits % q.den = 0)
  ((2 * r + bitOf (!exact) : Nat) : Rat) / ((2 ^ (sqrtBits + 1) : Nat) : Rat)

/-- The square root (R146). -/
def sqrtV (a : FVal) : FVal × Nat :=
  match a with
  | .nan s => (.nan false, if s then 16 else 0)
  | .inf false => (.inf false, 0)
  | .inf true => (.nan false, 16)
  | .zero n => (.zero n, 0)
  | .fin q => if q < 0 then (.nan false, 16) else (.fin (sqrtQ q), 0)

/-- The order of two values; zeros are equal, and a NaN has no order (Table 6.3). -/
def ltV (a b : FVal) : Bool :=
  match a, b with
  | .nan _, _ => false
  | _, .nan _ => false
  | .inf n, .inf m => n && !m
  | .inf n, _ => n
  | _, .inf m => !m
  | .zero _, .zero _ => false
  | .zero _, .fin q => decide (0 < q)
  | .fin p, .zero _ => decide (p < 0)
  | .fin p, .fin q => decide (p < q)

/-- Equality of two values that are no NaN; zeros are equal. -/
def eqV (a b : FVal) : Bool := !a.isNan && !b.isNan && !ltV a b && !ltV b a

/-- fmin and fmax (R73): the value and NV for a signalling operand. -/
def fminV (wantMax : Bool) (a b : FVal) : FVal × Nat :=
  if a.isNan || b.isNan then (.nan false, sigNV [a, b])
  else
    let aLess := ltV a b || (eqV a b && a.sign && !b.sign)
    (if aLess = wantMax then b else a, 0)

/-! ## Random words (R76) -/

/-- One round of Philox4x32. -/
def philoxRound (k0 k1 c0 c1 c2 c3 : Nat) : Nat × Nat × Nat × Nat :=
  let pa := 0xD2511F53 * c0
  let pb := 0xCD9E8D57 * c2
  (fld pb 32 32 ^^^ c1 ^^^ k0, fld pb 0 32, fld pa 32 32 ^^^ c3 ^^^ k1, fld pa 0 32)

/-- `n` rounds from the key `k0 k1`; the key is bumped between rounds. -/
def philoxRounds : Nat → Nat → Nat → Nat × Nat × Nat × Nat → Nat × Nat × Nat × Nat
  | 0, _, _, c => c
  | n + 1, k0, k1, (c0, c1, c2, c3) =>
    philoxRounds n ((k0 + 0x9E3779B9) % 2 ^ 32) ((k1 + 0xBB67AE85) % 2 ^ 32) (philoxRound k0 k1 c0 c1 c2 c3)

/-- What a tile's random words depend on beside the counter: SEED and the key's halves (R76). -/
structure RndKey where
  k0 : Nat
  k1 : Nat
  deriving DecidableEq, Repr

/-- rand16(el) of the counter value `ctr`. -/
def rand16 (key : RndKey) (ctr el : Nat) : Nat :=
  let (o0, o1, o2, o3) := philoxRounds 10 key.k0 key.k1 (fld ctr 0 32, fld ctr 32 32, el / 8, 0)
  let o := match el % 8 / 2 with
    | 0 => o0 | 1 => o1 | 2 => o2 | _ => o3
  fld o (16 * (el % 2)) 16

/-! ## Lanes (R14, R137) -/

/-- Lane `i` of width `w` of a number. -/
def laneOf (v w i : Nat) : Nat := fld v (w * i) w

/-- The lanes of a register, lane 0 first. -/
def lanes (v w n : Nat) : List Nat := (List.range n).map (laneOf v w)

/-- Lanes put together, lane 0 lowest. -/
def fromLanes (w : Nat) : List Nat → Nat
  | [] => 0
  | l :: ls => l % 2 ^ w + 2 ^ w * fromLanes w ls

/-- A vector from its lanes. -/
def vecOf (w : Nat) (ls : List Nat) : Vec := BitVec.ofNat 512 (fromLanes w ls)

/-! ## Block formats (R80, R81) -/

/-- Which of the two block formats: B24x4 or B24x10. -/
inductive Blk where
  | b4 | b10
  deriving DecidableEq, Repr

def Blk.elemBits : Blk → Nat
  | .b4 => 4 | .b10 => 10
def Blk.magBits : Blk → Nat
  | .b4 => 2 | .b10 => 8
def Blk.bytes : Blk → Nat
  | .b4 => 16 | .b10 => 32
def Blk.eaBit : Blk → Nat
  | .b4 => 96 | .b10 => 240
def Blk.frac : Blk → Nat
  | .b4 => 1 | .b10 => 7
def Blk.magMax : Blk → Nat
  | .b4 => 3 | .b10 => 255
def Blk.emin : Blk → Nat
  | .b4 => 0 | .b10 => 1

/-- A block with an exponent of 0xFF is poisoned (R80). -/
def poisoned (b : Blk) (blk : Nat) : Bool :=
  decide (fld blk b.eaBit 8 = 0xFF) || decide (fld blk (b.eaBit + 8) 8 = 0xFF)

/-- decode_block (R80). -/
def decodeBlock (b : Blk) (blk i : Nat) : FVal :=
  if poisoned b blk then .nan false
  else
    let el := laneOf blk b.elemBits i
    let m := fld el 0 b.magBits
    let neg := decide (fld el b.magBits 1 = 1)
    let e0 := if fld el (b.magBits + 1) 1 = 1 then fld blk (b.eaBit + 8) 8 else fld blk b.eaBit 8
    let e := max e0 b.emin
    if m = 0 then .zero false
    else
      let q := (m : Rat) * pow2 ((e : Int) - 127 - b.frac)
      .fin (if neg then -q else q)

/-- The pattern of a block element in f32 or bf16: exact (R80). -/
def blockLane (f : Fmt) (b : Blk) (blk i : Nat) : Nat := (roundF f .rne false 0 (decodeBlock b blk i)).1

def ratOf : FVal → Rat
  | .fin q => q
  | _ => 0

/-- Element fields and flags of one value under quantisation (R81). -/
def quantElem (b : Blk) (ea eb : Nat) (rm : RMode) (rnd : Nat) (x : Rat) : Nat × Nat :=
  let a := if x < 0 then -x else x
  let sa := pow2 ((ea : Int) - 127 - b.frac)
  let sb := pow2 ((eb : Int) - 127 - b.frac)
  let qa := ((min (roundInt (a / sa) .rne false 0) b.magMax : Nat) : Rat) * sa
  let qb := ((min (roundInt (a / sb) .rne false 0) b.magMax : Nat) : Rat) * sb
  let da := if qa < a then a - qa else qa - a
  let db := if qb < a then a - qb else qb - a
  let s := decide (db < da)
  let sc := if s then sb else sa
  let m0 := roundInt (a / sc) rm (decide (x < 0)) rnd
  let m := min m0 b.magMax
  let fl := (if m0 > b.magMax then 4 else 0) + (if (m : Rat) * sc = a then 0 else 1)
  let sign := if x < 0 ∧ m > 0 then 1 else 0
  let sel := if s ∧ m ≠ 0 then 1 else 0
  (m + sign * 2 ^ b.magBits + sel * 2 ^ (b.magBits + 1), fl)

/-- quantize_block (R81): the block and the flags. `rnd i` is the random word of element i. -/
def quantizeBlock (b : Blk) (delta : Nat) (rm : RMode) (xs : List FVal) (rnds : List Nat) : Nat × Nat :=
  let nv := sigNV xs
  if xs.any (fun x => match x with | .nan _ | .inf _ => true | _ => false) then
    (0xFF * 2 ^ b.eaBit + 0xFF * 2 ^ (b.eaBit + 8), 16)
  else
    let qs := xs.map ratOf
    let amax := qs.foldl (fun m q => max m (if q < 0 then -q else q)) 0
    let ea := if amax = 0 then b.emin else (min (max (floorLog2 amax + 127) (b.emin : Int)) 254).toNat
    let eb := max (ea - delta) b.emin
    let els := (qs.zip rnds).map fun (q, r) => quantElem b ea eb rm r q
    let body := fromLanes b.elemBits (els.map Prod.fst)
    (body + ea * 2 ^ b.eaBit + eb * 2 ^ (b.eaBit + 8), els.foldl (fun f e => f ||| e.2) nv)

/-! ## Sums (R84) -/

/-- One f32 addition of patterns, RNE, no flags: a step of a fixed order. -/
def addF32 (a b : Nat) : Nat := (roundF .f32 .rne false 0 (addV false (decodeF .f32 a) (decodeF .f32 b)).1).1

/-- An addition in any element format: RNE for floats, wrapping for integers. -/
def addFmt (f : Fmt) (a b : Nat) : Nat :=
  if Fmt.isInt f then wrapI f (decodeI f a + decodeI f b)
  else (roundF f .rne false 0 (addV false (decodeF f a) (decodeF f b)).1).1

/-- A minimum or maximum in any element format. -/
def minFmt (f : Fmt) (wantMax : Bool) (a b : Nat) : Nat :=
  if Fmt.isInt f then
    (if (decide (decodeI f a < decodeI f b)) = wantMax then b else a)
  else (roundF f .rne false 0 (fminV wantMax (decodeF f a) (decodeF f b)).1).1

/-- An element that a reduction delivers as it came: a NaN is delivered as the canonical one (R72). -/
def canonFmt (f : Fmt) (a : Nat) : Nat :=
  if !Fmt.isInt f ∧ (decodeF f a).isNan then canonNan f else a

end Sys2Proof.Machine
end

