-- ==== Sys2Proof/Machine/State.lean ====
section
/-! DEFINITION. The state of the machine as plain data: cores, tiles, partitions, the module and its surroundings. Every
table is a list of entries with strictly rising keys, none of which holds what an unlisted key reads as. -/

namespace Sys2Proof.Machine

/-- A table from numbers: strictly rising keys, no entry equal to what an unlisted key reads as. -/
abbrev Table (α : Type) := List (Nat × α)

/-- A byte memory in canonical form: strictly rising addresses, no entry equal to the byte 0 that an unlisted address
reads as (log entry 2). -/
abbrev Memory := List Host.Cell

/-! ## A core -/

/-- A register by its physical number: the six files (R12, R13). -/
inductive RegId where
  | k (n : Nat) | a (n : Nat) | v (n : Nat) | w (n : Nat) | x (n : Nat) | p (n : Nat)
  deriving DecidableEq, Repr

/-- Where a write in flight lands: a register, an output window's engine (R140), or the sticky flags (R83). -/
inductive Dest where
  | reg (r : RegId)
  | push (r : RegId) (eng run : Nat)
  | flags
  deriving DecidableEq, Repr

/-- A write in flight (R22, R23): its landing cycle, the bundle that issued it, its priority among the writes of that
bundle (0 the file's own slot, 1 a load, 2 to 6 XCOPY from K to X), its destination and its value. -/
structure Flight where
  land : Nat
  seq  : Nat
  prio : Nat
  dest : Dest
  val  : Vec
  deriving DecidableEq, Repr

/-- A pending extension (R57); `bad` says that its EXT had a nonzero guard. -/
structure PendExt where
  payload : BitVec 51
  bad     : Bool
  deriving DecidableEq, Repr

/-- A pending transfer (R99): its target and the transfer's own address. -/
structure Xfer where
  target : CodeAddr
  origin : CodeAddr
  deriving DecidableEq, Repr

/-- Where a parked register is (R130, R131): in a register of the other file's park set, or in a 64-byte unit of a spill region. -/
inductive ParkPlace where
  | reg (n : Nat)
  | mem (addr : Nat)
  deriving DecidableEq, Repr

/-- An entry of the spill map (R130): the register parked and its place. -/
structure ParkEntry where
  file  : VFile
  reg   : Nat
  place : ParkPlace
  deriving DecidableEq, Repr

/-- The register state that a snapshot holds (R357): the register files, the loop stack, the RW CSRs, what is in flight
and pending, and the spill map. -/
structure Regs where
  k : Table Word
  a : Table Word
  x : Table Word
  v : Table Vec
  w : Table Vec
  p : BitVec 16
  loops : List Loop
  fmode : Word
  fflags : BitVec 5
  seed : Word
  rngctr : Word
  blkdelta : Word
  rrbv : Nat
  rrbw : Nat
  rotv : Nat
  rotw : Nat
  epicnt : BitVec 16
  chken : Bool
  strict : Bool
  slipmax : BitVec 16
  tcause : BitVec 8
  tinfo0 : Word
  tinfo1 : Word
  tinfo2 : Word
  tpc : CodeAddr
  imp : Bool
  exts : List (Slot × PendExt)
  xfer : Option Xfer
  flights : List Flight
  spills : List ParkEntry
  deriving DecidableEq, Repr

/-- The registers of the first list of R35. -/
def Regs.start : Regs :=
  { k := [], a := [], x := [], v := [], w := [], p := 1, loops := [], fmode := 0, fflags := 0, seed := 0, rngctr := 0,
    blkdelta := 0x603, rrbv := 0, rrbw := 0, rotv := 0, rotw := 0, epicnt := 0, chken := false, strict := false,
    slipmax := 64, tcause := 0, tinfo0 := 0, tinfo1 := 0, tinfo2 := 0, tpc := 0, imp := false, exts := [], xfer := none,
    flights := [], spills := [] }

/-- An entry of the region table (R18). -/
structure Region where
  base : Nat
  size : Nat
  ro   : Bool
  kind : Nat
  fmt  : Nat
  deriving DecidableEq, Repr

/-- The vote mode of a LOCK (R180). -/
inductive Vote where
  | none | and (p : Bool) | or (p : Bool) | noVote
  deriving DecidableEq, Repr

/-- An arrival in the current epoch (R176, R180): its time, vote, and what it contributes. -/
structure Arrival where
  time  : Nat
  vote  : Vote
  round : Bool
  win   : Bool
  ended : Bool
  deriving DecidableEq, Repr

/-- The modes of a phaser member (R175). -/
inductive PhMode where
  | sw | so | wo
  deriving DecidableEq, Repr

/-- A core's registration with a phaser: the mode in which the phaser counts it (none where it is not registered), the mode that its
own forms see, which changes as it observes a release, the mode or the leaving that the next release brings (R230), how many releases
it has observed, and how many epochs it has arrived in. -/
structure Member where
  mode    : Option PhMode
  view    : Option PhMode
  pending : Option (Option PhMode)
  seen    : Nat
  arr     : Nat
  deriving DecidableEq, Repr

def Member.none : Member := { mode := .none, view := .none, pending := .none, seen := 0, arr := 0 }

/-- Why a core is where it is (R34, R190, R354). -/
inductive CoreStatus where
  | idle | running | ended | stopped
  deriving DecidableEq, Repr

/-- The operations that a quay queue accepts (R320, R327); an atomic's AOP by its code. -/
inductive QuayKind where
  | get | put | gath | atom (aop : Nat)
  deriving DecidableEq, Repr

/-- An operation of a quay queue (R320-R333): its order in the tile, its serial, core and kind, the tile-store address, the
virtual address of the handle's offset, the handle, its context, the units of a row and the rows' indices (QGATH), the
units, the elements (QATOM), the translation it keeps, the token it pushes and the operation whose token it takes, its
promise, the cycles of its units' slots, the units not yet performed, those that have not reached the second tier, the operations
that the last QMARK puts before it, its index list and the pages of its handle as they stood at its issue (QGATH), the cycle from which
it has its entry, the first slot that it may take but for its walks, its poison count, and whether poison has stopped it. -/
structure QuayTask where
  id : Nat
  serial : Nat
  core : Nat
  kind : QuayKind
  store : Nat
  va : Nat
  handle : Nat
  ctx : Nat
  row : Nat
  idx : List Nat
  units : Nat
  elems : Nat
  frames : List (Nat × Word)
  tp : Bool
  tw : Bool
  tid : Nat
  after : Option Nat
  promise : Nat
  slots : List Nat
  left : Nat
  port : Nat
  mark : Nat
  list : Nat
  tables : Table Word
  start : Option Nat
  first : Nat
  poison : Nat
  stop : Bool
  deriving DecidableEq, Repr

/-- The status of a serial (R320, R332): the promise, and once complete the poison count and the cycle. -/
structure QuayStatus where
  id : Nat
  promise : Nat
  done : Option (Nat × Nat)
  deriving DecidableEq, Repr

/-- A quay queue: its operations in order, the next serial, the statuses of the last 256 serials, the latest second-tier
access and the latest second-tier write given to it, the marks that order its operations, and the first slot that each of its two
FIFOs may still use (R278, R322, R323, R333). -/
structure QuayQueue where
  tasks  : List QuayTask
  serial : Nat
  status : Table (Option QuayStatus)
  access : Nat
  wrote  : Nat
  markW  : Nat
  atomA  : Nat
  markId : Nat
  getV   : Nat
  putV   : Nat
  deriving DecidableEq, Repr

def QuayQueue.reset : QuayQueue := { tasks := [], serial := 0, status := [], access := 0, wrote := 0, markW := 0, atomA := 0, markId := 0, getV := 0, putV := 0 }

/-- A token of a token store: the operation that pushes it, its promise, and once pushed its poison count and cycle (R330). -/
structure Token where
  id : Nat
  promise : Nat
  pushed : Option (Nat × Nat)
  deriving DecidableEq, Repr

/-- A slot of a context's handle table (R259). -/
inductive HandleState where
  | free | opened | freeing
  deriving DecidableEq, Repr

structure Handle where
  base : Nat
  len : Nat
  ro : Bool
  gen : Nat
  state : HandleState
  count : Nat
  deriving DecidableEq, Repr

def Handle.reset : Handle := { base := 0, len := 0, ro := false, gen := 0, state := .free, count := 0 }

/-- An entry of a port's TLB (R258, R264): its context and page, the operations that hold it (with their promises), whether it is
dying, and whether a miss has taken its place, so that it leaves with the last of them (log entry 48). -/
structure TlbEntry where
  ctx : Nat
  page : Nat
  pins : List (Nat × Nat)
  dying : Bool
  leaving : Bool
  deriving DecidableEq, Repr

/-- The TLB of a quay port, the entry used last first, and the cycle at which its last walk ends. -/
structure Tlb where
  entries : List TlbEntry
  walkEnd : Nat
  deriving DecidableEq, Repr

def Tlb.reset : Tlb := { entries := [], walkEnd := 0 }

/-- What a blocking form waits for (R181, R185, and each form's entry). -/
inductive WaitFor where
  /-- The observed release of the primary phaser's lock: `epoch` releases observed before it, and the LOCK's own ROUND. -/
  | lock (epoch : Nat) (round : Bool)
  | phaser (ph epoch : Nat)
  | send (ch src n off : Nat)
  | recv (ch need : Nat)
  | recvr (ch need : Nat)
  | stream (eng run : Nat)
  | nest (lra lrb : Bool)
  | swap (ticket : Nat)
  | array
  /-- q, and the tile of the latest arrival, once every member has come. -/
  | mred (q : Option (Nat × Nat)) (acc : Nat)
  | quay (q : Nat) (task : QuayTask) (xd : Nat)
  | token (tid : Nat) (op : Option Token) (xd : Nat)
  | serial (q n xd : Nat) (early : Bool)
  | coll (ticket xd : Nat)
  | osend (och : Nat) (xa : Word)
  | orecv (och : Nat) (need : Nat)
  deriving DecidableEq, Repr

/-- A wait: the slot, its word and the form's bound, the cycle it issued, the cycle at which its bound traps (none until that is
known), what it waits for, and whether a TRET has resumed it. -/
structure Wait where
  slot   : Nat
  word   : Nat
  issued : Nat
  limit  : Option Nat
  bound  : Nat
  what   : WaitFor
  again  : Bool
  deriving DecidableEq, Repr

/-- A pending imprecise cause (R349): the cycle from which it is taken, and its trap. -/
structure Pending where
  due  : Nat
  info : TrapInfo
  deriving DecidableEq, Repr

/-- A half of the loop buffer (R40): where the run expanded in it begins, and the cycle from which its first bundle is
available; none when the launch expanded the whole run. -/
structure Half where
  start : CodeAddr
  ready : Option Nat
  deriving DecidableEq, Repr

/-- What a withheld item is (Table 12.2). -/
inductive HeldItem where
  | store | release (slots : List Nat) | undo | spill
  deriving DecidableEq, Repr

/-- A withheld item and the bytes it takes (R249, R358). -/
structure Held where
  seg   : Nat
  bytes : Nat
  item  : HeldItem
  deriving DecidableEq, Repr

/-- A start-log entry (R359): the form's slot word, its issue cycle and segment, its x result, the slots whose withheld
releases it recorded, and a quay operation that a rerun found before its queue had room for it: its queue, itself and its XD (R263). -/
structure LogEntry where
  word  : Nat
  at_   : Nat
  seg   : Nat
  xd    : Option (Nat × Word)
  slots : List Nat
  held  : Option (Nat × QuayTask × Nat)
  deriving DecidableEq, Repr

/-- A stream descriptor: eight 64-bit fields (R294). -/
structure Desc where
  src : Word
  dst : Word
  d0 : Word
  d1 : Word
  d2 : Word
  d3 : Word
  ctl : Word
  idx : Word
  deriving DecidableEq, Repr

/-- The position of a window in a snapshot: its engine and transfer, the beats popped and pushed, whether SFREE had
unbound it, and whether a replay had still to reach it. -/
structure WinSnap where
  eng : Nat
  run : Nat
  popped : Nat
  pushed : Nat
  unbound : Bool
  masked : Bool
  deriving DecidableEq, Repr

/-- What a bundle that a precise trap can still suppress after its issue (R326, R332) found: its address, the registers, the windows, the
quay queues and the token stores before it, and the bytes that its pushes have overwritten since, by side and address, the newest first. -/
structure Undo where
  addr : CodeAddr
  regs : Regs
  windows : List WinSnap
  quays : Table QuayQueue
  tokens : Table (List Token)
  bytes : List (Word × Nat × Byte)
  deriving DecidableEq, Repr

/-- The tile-level state that a snapshot holds beside the registers (R357): the claimed set, the descriptors, the window
positions, the nest shadow and MSTAT.VIS. -/
structure TileSnap where
  claimed : List Nat
  descs   : List Desc
  windows : List WinSnap
  shadow  : Table Word
  vis     : Bool
  deriving DecidableEq, Repr

/-- A snapshot (R357): the entry's cycle and address, the registers and the tile-level state, with the imprecise causes then
pending and SEGSEQ (R360). -/
structure Snap where
  at_  : Nat
  pc   : CodeAddr
  regs : Regs
  tile : TileSnap
  pending : List Pending
  segseq  : Nat
  deriving DecidableEq, Repr

/-- A core. -/
structure Core where
  status : CoreStatus
  /-- Rises when what was scheduled for the core no longer holds (a rewind, a stop, a new start). -/
  gen : Nat
  part : Option Nat
  pos : Nat
  gsize : Nat
  split : Bool
  coreNo : Nat
  thvec : CodeAddr
  regions : List Region
  parkV : List Nat
  parkW : List Nat
  regs : Regs
  hm : Bool
  /-- The cycle after the issue of the last TRET: a bundle before it is a handler's (R355). -/
  hmEnd : Nat
  phase : Nat
  /-- The cycle of the last observed release: SCYC counts from it (R172). -/
  relAt : Nat
  /-- The phase that the core has observed last is windowed (R172). -/
  windowed : Bool
  lkstat : Word
  segseq : Nat
  sigcnt : Nat
  /-- The next bundle: its address, the transfer that named it (R97), the cycle from which its WAIT counts, and whether
  its WAIT was served before a trap (R353). -/
  pc : CodeAddr
  origin : Option CodeAddr
  /-- The code area ended before that address (R38). -/
  areaEnd : Bool
  due : Nat
  served : Bool
  /-- The cycle from which the bundle has been slipping (R21). -/
  slip : Option Nat
  seq : Nat
  /-- The waits of the bundle issued last that have not ended, K before X. -/
  waits : List Wait
  savedExts : List (Slot × PendExt)
  savedXfer : Option Xfer
  savedWaits : List Wait
  /-- The registers before the bundle issued last, where that bundle holds a QWAIT or a QGATH. -/
  before : Option Undo
  /-- The tick that a SLEEPT waits for (R188). -/
  sleepTo : Option Nat
  /-- An arrival at the primary phaser that R176, R214 or R365 delays. -/
  arriving : Option Arrival
  /-- The cycle of the core's last arrival at its lock, with the memberships and arrivals before it by phaser (R361). -/
  came : Option (Nat × List (Nat × Member × Option Arrival))
  pending : List Pending
  half0 : Option Half
  half1 : Option Half
  /-- The executing half (R40). -/
  half : Bool
  /-- The latest perform cycle of the stores and SPILLs issued (R128). -/
  performs : Nat
  /-- The causes that the taking of a trap discarded, for a rewind that discards the trap (R349, R361). -/
  dropped : List Pending
  /-- The open segment, the number of the last one, and the entry snapshots of the segments that have not committed, the newest
  first (R356, R358); the snapshot of the release that began the phase, and that no bundle has issued since (R364). -/
  segOpen : Option Nat
  segNext : Nat
  snaps : List (Nat × Snap)
  relSnap : Option Snap
  fresh : Bool
  /-- The next bundle is the entry of a segment (R356). -/
  entry : Bool
  held : List Held
  overlay : List (Nat × Byte × Nat)
  startLog : List LogEntry
  /-- The start-log entries that a replay has still to elide (R361). -/
  replay : List LogEntry
  /-- Mismatches found in the segment that a commit from `mismatchSeg` on ends, or in the phase (R363, R364). -/
  mismatches : Nat
  mismatchSeg : Nat
  mismatchAt : CodeAddr
  stampOff : Bool
  /-- END has issued; its pending work is complete at this cycle (R189). -/
  endAt : Option Nat
  /-- A trap that the core takes in place of its next bundle (R363, R364). -/
  forced : Option TrapInfo
  deriving DecidableEq, Repr

/-- A core that no launch has assigned (R34). -/
def Core.idle : Core :=
  { status := .idle, gen := 0, part := none, pos := 0, gsize := 0, split := false, coreNo := 0, thvec := 0,
    regions := [], parkV := [], parkW := [], regs := Regs.start, hm := false, hmEnd := 0, phase := 0, relAt := 0, windowed := false, lkstat := 0,
    segseq := 0, sigcnt := 0, pc := 0, origin := none, areaEnd := false, due := 0, served := false, slip := none, seq := 0, waits := [],
    savedExts := [], savedXfer := none, savedWaits := [], before := none, sleepTo := none, arriving := none, came := none, pending := [], half0 := none, half1 := none, half := false,
    performs := 0, dropped := [], segOpen := none, segNext := 0, snaps := [], relSnap := none, fresh := false, entry := false, held := [], overlay := [],
    startLog := [], replay := [], mismatches := 0, mismatchSeg := 0, mismatchAt := 0, stampOff := false, endAt := none, forced := none }

/-! ## A tile -/

/-- The reset values of a stream descriptor (Table 14.1): every COUNT 1, everything else 0. -/
def Desc.reset : Desc :=
  { src := 0, dst := 0, d0 := 0x0001000000000000, d1 := 0x0001000000000000, d2 := 0x0001000000000000,
    d3 := 0x0001000000000000, ctl := 0, idx := 0 }

/-- What a transfer is bound to: nothing (SGO), or a register of a file, as an input or an output window (R298). -/
inductive Binding where
  | sgo
  | input (file : VFile) (reg : Nat)
  | output (file : VFile) (reg : Nat)
  deriving DecidableEq, Repr

/-- A stream transfer (R295-R300): its number, core, descriptor, the FMT fixed at issue, its start cycle, beats and binding;
how many beats have been read, have entered the window, were popped, had space reserved, were pushed and were written; a
decoded unit of which later beats carry more; the beats fetched, in the window, and popped since the segment's entry; the
index words sampled. `unbound` is SFREE's or END's unbinding, `masked` that a replay has not yet reached its SBIND, `fault`
stops it, `done` is its completion point. -/
structure Transfer where
  id      : Nat
  core    : Nat
  desc    : Desc
  fmt     : Nat
  start   : Nat
  beats   : Nat
  bind    : Binding
  read    : Nat
  entered : Nat
  popped  : Nat
  reserved : Nat
  pushed  : Nat
  written : Nat
  carry   : Option (Nat × List Byte)
  fetched : List Vec
  window  : List Vec
  gone    : List Vec
  index   : Table Nat
  unbound : Bool
  masked  : Bool
  fault   : Bool
  done    : Option Nat
  deriving DecidableEq, Repr

/-- A stream engine: its descriptor, its transfer, the number of the next transfer, and the transfers before it that a rewind may
still ask back, the newest first (R361). -/
structure Engine where
  desc : Desc
  xfer : Option Transfer
  next : Nat
  past : List Transfer
  deriving DecidableEq, Repr

def Engine.reset : Engine := { desc := Desc.reset, xfer := none, next := 0, past := [] }

/-- The transfers that an engine keeps, the newest first. -/
def Engine.all (x : Engine) : List Transfer := x.xfer.toList ++ x.past

/-- The transfer of a number. -/
def Engine.run (x : Engine) (id : Nat) : Option Transfer := x.all.find? fun t => decide (t.id = id)

/-- The transfer that the program sees: the newest that a replay has reached. -/
def Engine.shown (x : Engine) : Option Transfer := x.all.find? fun t => !t.masked

/-- The state of an operand-memory slot (R239). -/
inductive SlotState where
  | free | claimed | draining
  deriving DecidableEq, Repr

/-- A nest of the array (R309, R310): its number and core, the shadow copied at commit, its NANTRAP, its commit and
start cycles, its steps and the time of a step, the steps sampled, and whether it writes bank 0. -/
structure Nest where
  id      : Nat
  core    : Nat
  bank0   : Bool
  shadow  : Table Word
  nantrap : Bool
  commit  : Nat
  start   : Nat
  steps   : Nat
  time    : Nat
  sampled : Nat
  deriving DecidableEq, Repr

/-- An MCLR not yet performed (R314): its number, accumulator tile, cycle and issue cycle, whether it clears in bank 0, and whether a
step committed after it has already found its zeros. -/
structure Clear where
  id     : Nat
  acc    : Nat
  due    : Nat
  issued : Nat
  bank0  : Bool
  seen   : Bool
  deriving DecidableEq, Repr

/-- The array of a tile (R305-R314): the nest shadow, which bank is visible, the nests with an update unwritten, the MCLRs
not yet performed, the next ticket, the swaps waiting, the cycle from which the array is
free for a further nest, the cycle of the last accumulator write of what is committed, and of the last one made. -/
structure ArrayUnit where
  shadow : Table Word
  vis    : Bool
  nests  : List Nest
  clears : List Clear
  swaps  : List Nat
  next   : Nat
  freeAt : Nat
  lastW  : Nat
  wrote  : Nat
  deriving DecidableEq, Repr

/-- At a start entry bank 0 is working and bank 1 visible (R244). -/
def ArrayUnit.reset : ArrayUnit :=
  { shadow := [], vis := true, nests := [], clears := [], swaps := [], next := 0, freeAt := 0, lastW := 0, wrote := 0 }

/-- What a route entry counts in a phase (R215, R217, R224-R227): the flits written, the last of them by cycle, the flits
in flight, sent, LATE, the SENDR contribution (its issue cycle and source), and the inputs of a tree's flits that have come
(by flit: port, the cycle from which it is there, data). -/
structure Chan where
  arr    : Nat
  lastAt : Nat
  lastN  : Nat
  infl   : Nat
  sent   : Nat
  late   : Bool
  contrib : Option (Nat × Nat)
  merges : Table (List (Nat × Nat × BitVec 1024))
  deriving DecidableEq, Repr

def Chan.reset : Chan := { arr := 0, lastAt := 0, lastN := 0, infl := 0, sent := 0, late := false, contrib := none, merges := [] }

/-- A fragment that a tile has sent and its receiver has not yet written (R189, R214): its channel, issue cycle, the flits
still to be written, and the cycle that R213 gives for its completion (none in a windowed phase). -/
structure Outgoing where
  chan  : Nat
  issue : Nat
  left  : Nat
  due   : Option Nat
  deriving DecidableEq, Repr

/-- A participant's part of a collective (R335-R338): its core, ticket and descriptor, its rank, the context and
translation of a named handle, the units of its staging range that an abort has zeroed, and whether the collective has ended for it. -/
structure CollPart where
  core   : Nat
  ticket : Nat
  desc   : List Byte
  rank   : Nat
  ctx    : Nat
  frames : List (Nat × Word)
  zeroed : Nat
  gone   : Bool
  deriving DecidableEq, Repr

/-- A collective (R336-R340): its partition and scope, its membership phaser, the participants' cores and their number over
the whole group, the parts issued, the contributions sampled so far and the number of the remote ones' free data, whether a part expects
another topology (R340), whether its commit cycle has come, and the code and cycle of its abort. -/
structure Coll where
  pid     : Nat
  group   : Bool
  ph      : Nat
  members : List Nat
  count   : Nat
  parts   : List CollPart
  data    : List (List Byte)
  remote  : Nat
  stale   : Bool
  commit  : Bool
  aborted : Option (Nat × Nat)
  deriving DecidableEq, Repr

def Coll.none : Coll :=
  { pid := 0, group := false, ph := 0, members := [], count := 0, parts := [], data := [], remote := 0, stale := false, commit := false,
    aborted := Option.none }

/-- An optical channel of a tile: its table entry (R397) and what it counts in a phase (R400, R409). -/
structure OptChan where
  entry  : BitVec 128
  standby : BitVec 128
  arr    : Nat
  lastAt : Nat
  lastN  : Nat
  sent   : Nat
  stale  : Nat
  late   : Bool
  topv   : BitVec 16
  name   : Nat
  deriving DecidableEq, Repr

def OptChan.reset : OptChan :=
  { entry := 0, standby := 0, arr := 0, lastAt := 0, lastN := 0, sent := 0, stale := 0, late := false, topv := 0, name := 0 }

/-- An optical message queued on a lane (R399, R402, R413): its number, issue cycle, peer (module, lane and entry), source,
offset and flits, the flits that have left, the departures planned at issue (of flit 0) and in force (of flit `base`),
whether it goes on a demand circuit and whether its flits wait for a pause to end. -/
structure OptMsg where
  id    : Nat
  issue : Nat
  pmod  : Nat
  plane : Nat
  pent  : Nat
  src   : Nat
  off   : Nat
  n     : Nat
  next  : Nat
  plan  : Nat
  base  : Nat
  first : Nat
  demand : Bool
  stalled : Bool
  deriving DecidableEq, Repr

/-- The optical lane of a port tile (R399, R401, R405, R406, R415): its messages in order of issue, the number of the next,
the cycle from which the next message may be planned and the one from which the next flit may leave, the declared gap, the
cycle until which the lane cannot transmit, and the acknowledgements and the last write that an arrival waits for. -/
structure Lane where
  msgs    : List OptMsg
  next    : Nat
  freeAt  : Nat
  slotAt  : Nat
  gapFrom : Nat
  gapTo   : Nat
  blockTo : Nat
  unacked : Nat
  doneAt  : Nat
  deriving DecidableEq, Repr

def Lane.reset : Lane :=
  { msgs := [], next := 0, freeAt := 0, slotAt := 0, gapFrom := 0, gapTo := 0, blockTo := 0, unacked := 0, doneAt := 0 }

/-- A flit in a retry buffer (R406): the lane whose slot it reached, the lane whose tile sent it, its peer module, and whether it goes by
a demand circuit. -/
structure HeldFlit where
  lane : Nat
  home : Nat
  pmod : Nat
  demand : Bool
  flit : OptFlit
  deriving DecidableEq, Repr

/-- An optical port (R406, R407): the start of its pause, its pause bound, the retry buffer in order, and whether it is lost. -/
structure Port where
  pause  : Option Nat
  bound  : Nat
  buffer : List HeldFlit
  lost   : Bool
  deriving DecidableEq, Repr

def Port.reset : Port := { pause := none, bound := 120000, buffer := [], lost := false }

/-- What a sheaf or zone move makes of a tile (R379, R380, R383): still, waiting for its engines, holding from c0 to f, or moved
until its partition's next release. -/
inductive MoveState where
  | still | waiting | holding | moved
  deriving DecidableEq, Repr

/-- A tile. -/
structure Tile where
  store  : Memory
  om     : Memory
  acc0   : Memory
  acc1   : Memory
  slots  : Table SlotState
  /-- The claimed slots that the program has released and the segment withholds (R241, R242). -/
  released : List Nat
  /-- The slots that have become free after a release (Table 12.6). -/
  freed : List Nat
  dict   : Table Nat
  index  : Table Nat
  indexRest : Nat
  engines : Table Engine
  array  : ArrayUnit
  routes : Table (BitVec 128)
  chans  : Table Chan
  outs   : List Outgoing
  /-- The cycle of the last write of what each core has sent. -/
  wroteAt : Table Nat
  quays  : Table QuayQueue
  given : List Nat
  tokens : Table (List Token)
  issueOrder : Nat
  colls  : List Nat
  ticket : Nat
  outcomes : Table (Option (Nat × Nat))
  stale  : Nat
  opts   : Table OptChan
  lane   : Lane
  ecc    : Nat
  /-- Latent bit errors, by space × 2^32 + word, each correctable or not: an input of the surroundings, which no step makes (R367,
  R373). Words of 16 bytes of the tile store (0), operand memory (2), accumulators (3) and code store (4), and of 8 bytes of the
  register files (1), withhold buffer (5) and loop buffer (6); log entry 47 says where a word of the last three stands. -/
  errors : Table (Option Bool)
  eccTicks : List Nat
  testRows : List Nat
  /-- A mark for retirement: its reason, and the row whose test it waits for (R376). -/
  marked : Option (Nat × Option Nat)
  /-- A pair self-test is due at the next lock (R363, R388). -/
  pairTest : Bool
  /-- The queued rows that the release now due tests, and that it holds a pair self-test (R374, R388). -/
  testing : Nat
  pairDue : Bool
  move : MoveState
  /-- f of the move. -/
  moveEnd : Nat
  deriving DecidableEq, Repr

/-- A tile that nothing has loaded (R34). -/
def Tile.idle : Tile :=
  { store := [], om := [], acc0 := [], acc1 := [], slots := [], released := [], freed := [], dict := [], index := [], indexRest := 0,
    engines := [], array := ArrayUnit.reset, routes := [], chans := [], outs := [], wroteAt := [], quays := [],
    given := [], tokens := [], issueOrder := 0, colls := [], ticket := 0, outcomes := [], stale := 0, opts := [],
    lane := Lane.reset, ecc := 0, errors := [], eccTicks := [], testRows := [], marked := none, pairTest := false,
    testing := 0, pairDue := false, move := .still, moveEnd := 0 }

/-! ## A partition -/

/-- A phaser (R175, R228): its members by core, its epoch, the arrivals of the epoch, the release tick once every counted
member has arrived, and the counted members at the release that began the current phase (R336). -/
structure Phaser where
  members  : Table Member
  epoch    : Nat
  arrivals : Table (Option Arrival)
  release  : Option Nat
  roster   : List Nat
  deriving DecidableEq, Repr

def Phaser.reset : Phaser := { members := [], epoch := 0, arrivals := [], release := none, roster := [] }

/-- The launch header's fields that a partition keeps (Table 9.3). -/
structure Header256 where
  iver : Nat
  hfmt : Nat
  width : Nat
  height : Nat
  gsize : Nat
  split : Bool
  strag : Nat
  phmask : Word
  bintab : Nat
  routes : Nat
  regions : Nat
  lading : Nat
  start : CodeAddr
  resume : CodeAddr
  hints : Nat
  nhint : Nat
  grank : Nat
  gcount : Nat
  gtag : Nat
  digest : BitVec 512
  deriving DecidableEq, Repr

def Header256.zero : Header256 :=
  { iver := 0, hfmt := 0, width := 0, height := 0, gsize := 0, split := false, strag := 0, phmask := 0, bintab := 0,
    routes := 0, regions := 0, lading := 0, start := 0, resume := 0, hints := 0, nhint := 0, grank := 0, gcount := 0,
    gtag := 0, digest := 0 }

/-- What a placed partition is doing: nothing is placed, it is loading (or waits for its group's start tick), it runs, or it is
stopped until its save area is reloaded (R422). -/
inductive PartStatus where
  | none | waiting | running | restoring
  deriving DecidableEq, Repr

/-- A communication-phase hint (R199). -/
structure Hint where
  phase  : Nat
  gap    : Nat
  period : Nat
  deriving DecidableEq, Repr

/-- A partition (R170, R198, R202-R205): what was launched and where, its phasers, and what the next releases bring. -/
structure Part where
  status : PartStatus
  hdr    : Header256
  image  : Nat
  queue  : Nat
  token  : Option (Nat × Nat)
  ox     : Nat
  oy     : Nat
  width  : Nat
  height : Nat
  t0     : Nat
  hints  : List Hint
  phasers : Table Phaser
  /-- Exchange phases: the current one is windowed; the next one is; the command processor forced it (R172). -/
  windowed : Bool
  winNext : Bool
  forced : Bool
  /-- Bits [7:0] of LKSTAT as the release now due, or the last one, sets them (Table 8.5). -/
  lk : Nat
  /-- The PHASE at the last round's release; none before the first (R366). -/
  roundPhase : Option Nat
  /-- A mark for pre-emption: the queue that waits, the save area (R203). -/
  preempt : Option (Nat × Nat)
  /-- The resume entry's save area (R369). -/
  resumeSave : Option Nat
  /-- The cycle of the mismatch whose rerun is under way (R364). -/
  rerun : Option Nat
  /-- Every tile has stopped, and the task completes once what they had begun is done (R284, R354). -/
  ending : Bool
  /-- The parts of its group program that started on this module (R205). -/
  here : Nat
  /-- The latest arrival of other modules' members at the lock whose release is due; 0 while none is (R178). -/
  farLast : Nat
  /-- A xor-parity collective of the task has committed (R420). -/
  checks : Bool
  /-- The second-tier pages that the task has touched, with their entries, and FMODE, SEED and BLKDELTA of relative TID 0 at the
  release that ended phase 0 (R432). -/
  touched : Table Word
  csr5 : Option (Word × Word × Word)
  deriving DecidableEq, Repr

def Part.none : Part :=
  { status := .none, hdr := Header256.zero, image := 0, queue := 0, token := Option.none, ox := 0, oy := 0, width := 0,
    height := 0, t0 := 0, hints := [], phasers := [], windowed := false, winNext := false, forced := false, lk := 0,
    roundPhase := Option.none, preempt := Option.none,
    resumeSave := Option.none, rerun := Option.none, ending := false, here := 0, farLast := 0, checks := false, touched := [], csr5 := Option.none }

/-! ## The bundle that is issuing -/

/-- A CSR write that takes effect with the bundle's end (R24, R108). -/
structure CsrWrite where
  num : Nat
  val : Word
  deriving DecidableEq, Repr

/-- How a bundle changes the loop stack beside LE (R100, R103). -/
inductive LoopChange where
  | none | push (l : Loop) | pop
  deriving DecidableEq, Repr

/-- The bundle that is issuing: its core, address, header flags, the slot words that have still to run, the extensions its
slots received and those they leave pending, the window values it popped, and what its slots have asked of the bundle's end. `slot` is the slot that
is running; `need` counts the bytes that the bundle has still to withhold. -/
structure Latch where
  active : Bool
  core   : Nat
  addr   : CodeAddr
  le     : Bool
  rt     : Bool
  slot   : Slot
  word   : Nat
  todo   : List (Slot × Nat)
  exts   : List (Slot × PendExt)
  given  : List (Slot × PendExt)
  pops   : List (RegId × Vec)
  seq    : Nat
  shadow : Option Xfer
  csrs   : List CsrWrite
  taken  : Option CodeAddr
  jump   : Option CodeAddr
  loops  : LoopChange
  waits  : List Wait
  hold   : Nat
  need   : Nat
  draws  : Nat
  ended  : Bool
  tret   : Option Bool
  follow : Option Follow
  deriving DecidableEq, Repr

def Latch.none : Latch :=
  { active := false, core := 0, addr := 0, le := false, rt := false, slot := .k, word := 0, todo := [], exts := [], given := [],
    pops := [],
    seq := 0, shadow := Option.none, csrs := [], taken := Option.none, jump := Option.none, loops := .none,
    waits := [], hold := 0, need := 0, draws := 0, ended := false, tret := Option.none,
    follow := Option.none }

/-! ## The module -/

/-- What a queue's command waits for (R193-R203, R387, R388): a token, a transfer, a rectangle, its partition's start tick, a
drain, a pre-emption, a retirement (with the zone's, where the command caused that), a SELFTEST's idle target, or its end. -/
inductive Block where
  | none
  | token (tok : Nat) (value : Nat)
  | copy
  | place
  | start (pid : Nat)
  | drain
  | preempt (pid : Nat)
  | retire (tile : Nat) (zone : Bool)
  | testWait (scope tile : Nat)
  | test
  deriving DecidableEq, Repr

/-- An open LOOPC: the ring index after it and the runs left (R195). -/
structure OpenLoop where
  start : Nat
  left  : Nat
  deriving DecidableEq, Repr

/-- A launch that has been read and waits for a rectangle (R202): its header, shape, token and save area. -/
structure Launch where
  hdr   : Header256
  image : Nat
  width : Nat
  height : Nat
  token : Option Nat
  save  : Option Nat
  deriving DecidableEq, Repr

/-- A COPYHT under way (R194, R284). -/
structure Copy where
  toHost : Bool
  host  : Nat
  dev   : Nat
  len   : Nat
  token : Option Nat
  deriving DecidableEq, Repr

/-- What the manifest of a task is made of (R432): the digests and bytes that the launch gives, the pages the task has touched
and the registers at the release that ended phase 0, final once the task of partition `pid` is no longer `live`. -/
structure Manifest where
  firmware : BitVec 512
  digest : BitVec 512
  tables : List Byte
  regions : List Byte
  shape  : Nat
  group  : Nat
  pid    : Nat
  live   : Bool
  touched : Table Word
  csr5   : Option (Word × Word × Word)
  deriving DecidableEq, Repr

/-- A command queue (Table 9.1), with the ring index of the command it serves or served last, its open LOOPCs, the commands it
still skips (IFMEM), the depth of LOOPC-ENDC nesting it skips (a LOOPC of count 0), what it waits for, and the cycle from which
it has been idle (R195). -/
structure Queue where
  host  : Bool
  base  : Nat
  log2  : Nat
  tail  : Nat
  head  : Nat
  waitmask : BitVec 16
  priv  : Bool
  prio  : Nat
  en    : Bool
  word  : Nat
  err   : Nat
  evovf : Bool
  halt  : Bool
  evt   : Nat
  evtail : Nat
  evhead : Nat
  at_   : Nat
  loops : List OpenLoop
  skip  : Nat
  seek  : Nat
  block : Block
  launch : Option Launch
  copy  : Option Copy
  /-- The stored manifest and the result word of a MANIFEST under way. -/
  compare : Option (Nat × Nat)
  idleAt : Nat
  deriving DecidableEq, Repr

def Queue.reset : Queue :=
  { host := false, base := 0, log2 := 0, tail := 0, head := 0, waitmask := 0, priv := false, prio := 0, en := false,
    word := 0, err := 0, evovf := false, halt := false, evt := 0, evtail := 0, evhead := 0, at_ := 0, loops := [], skip := 0,
    seek := 0, block := .none, launch := Option.none, copy := Option.none, compare := Option.none, idleAt := 0 }

/-! ## Images, ownership and bring-up -/

/-- The four CSR words of a region-table entry, as an image gives them (Table 1.3). -/
structure RegionWords where
  w0 : Word
  w1 : Word
  w2 : Word
  w3 : Word
  deriving DecidableEq, Repr

/-- What an image gives a core: THVEC, the park sets, the region table and its registrations with ph1 to ph63 (R130, R228). -/
structure CoreImage where
  thvec : CodeAddr
  parkV : List Nat
  parkW : List Nat
  regions : List RegionWords
  phasers : List (Nat × PhMode)
  deriving DecidableEq, Repr

/-- What an image gives a tile (Table 9.3): the dictionary of each core's share, the index area, its cores, the launch contents,
the route table with relative TIDs, and the optical table with its peers resolved (log entry 4). -/
structure TileImage where
  dict0 : Table Nat
  dict1 : Table Nat
  index : Table Nat
  core0 : CoreImage
  core1 : CoreImage
  contents : List (Nat × List Byte)
  routes : Table (BitVec 128)
  opts : Table (BitVec 128)
  deriving DecidableEq, Repr

def CoreImage.zero : CoreImage := { thvec := 0, parkV := [], parkW := [], regions := [], phasers := [] }

def TileImage.zero : TileImage :=
  { dict0 := [], dict1 := [], index := [], core0 := CoreImage.zero, core1 := CoreImage.zero, contents := [], routes := [], opts := [] }

/-- A program image (R69, R198): the sizes in bytes of BINTAB, ROUTES and REGIONS, the second tier's frames that hold the pages of each
in turn, its digest, the bytes of BINTAB and then ROUTES, the bytes of its region tables, whether an image of its group on another module
breaks R398 or the images disagree on a circuit's LEN, and its tiles by relative TID. -/
structure Image where
  sizes  : List Nat
  frames : List Nat
  digest : BitVec 512
  tables : List Byte
  regionTables : List Byte
  peersDiffer : Bool
  tiles : Table TileImage
  deriving DecidableEq, Repr

/-- A job map (R398, R418, R421), as data of the surroundings (log entry 21): the topology version it begins, the module of each group
logical rank (its id and one), the physical lane of each rank × 2^7 + logical lane (and one), the modules that the job of each GTAG uses,
the serving modules by 8 × parity group + position (each as its id and one), the guard, the spares, and the ports of the demand domain. -/
structure JobMap where
  topver  : Nat
  ranks   : Table Nat
  planes  : Table Nat
  uses    : Table (List Nat)
  serving : Table Nat
  guard_  : Option Nat
  spares  : List Nat
  domain  : List (Nat × Nat)
  deriving DecidableEq, Repr

/-- The lease (R426, R427): VALID, OWNER, SUCC, the cycle at which it expires, the cycle of the last claim, and the hosts whose
last OP had no effect. -/
structure Lease where
  valid  : Bool
  owner  : Nat
  succ   : Nat
  expiry : Nat
  claimed : Nat
  failed : List Nat
  deriving DecidableEq, Repr

def Lease.reset : Lease := { valid := false, owner := 0, succ := 0, expiry := 0, claimed := 0, failed := [] }

/-! ## The whole machine -/

/-- A step of the agenda: its cycle, its rank within the cycle, its order among equals, and what happens. -/
structure Ev where
  at_  : Nat
  rank : Nat
  key  : Nat
  ev   : Event
  deriving DecidableEq, Repr

/-- A sheaf reduction (R316): the core, accumulator tile and arrival of each member that has come, by member, the
cycle q once all four have, and the rows sampled and not yet written, by row × 4 + member. -/
structure Mred where
  arrived : Table (Nat × Nat × Nat)
  q : Option Nat
  rows : Table (List Nat)
  deriving DecidableEq, Repr

def Mred.none : Mred := { arrived := [], q := Option.none, rows := [] }

/-- Why a step can stop. -/
inductive Fault where
  /-- Raised by a step whose arguments name a unit that the module does not have (a tile, a field, a queue, a port or a
  host past the last): no such step exists, so stopping is safe. -/
  | noSuchUnit
  deriving DecidableEq, Repr

/-- Why an instruction has no meaning. -/
inductive Refusal where
  /-- Raised by an arm of `exec` whose instruction has no meaning yet: safe, a stop where the hardware goes on. -/
  | notModelled (mnemonic : String)
  deriving DecidableEq, Repr

/-- A sheaf shift under way (R378, R379): the dead physical column, the step, the partition whose forced phase the step waits for,
whether that phase has begun, whether the step's copy has, and whether a second death waits for the shift's end. -/
structure Shift where
  dead : Nat
  step : Nat
  owner : Option Nat
  begun : Bool
  copying : Bool
  second : Bool
  deriving DecidableEq, Repr

/-- A zone retirement under way (R382-R384): the failed physical row, whether the zone is lost, the logical rows still to move
(the present one first), the partitions of the present one, those that have begun their forced phase and those that have
released it, whether a copy is under way, and the partitions to restore. -/
structure ZoneMove where
  failed : Nat
  lost : Bool
  rows : List Nat
  pids : List Nat
  begun : List Nat
  seen : List Nat
  copying : Bool
  restore : List Nat
  deriving DecidableEq, Repr

/-- The machine. -/
structure State where
  /-- The cycle since power-on. -/
  now    : Nat
  /-- TICK is the cycle count plus this offset, once the timebase runs (R186). -/
  tickOn : Bool
  tickOff : Int
  latch  : Latch
  agenda : List Ev
  /-- The order given to the next step that the agenda takes. -/
  order  : Nat
  /-- The free values drawn (log entry 3). -/
  free   : Nat
  /-- The cycle from which the command processor may serve another command. -/
  hartAt : Nat
  cores  : Table Core
  tiles  : Table Tile
  parts  : Table Part
  /-- The router: the cycle after the one at which each directed link (tile × 4 + direction) last took a flit, and the
  flits waiting at each input port (R216). -/
  links  : Table Nat
  waiting : Table Nat
  mreds  : Table Mred
  /-- Handle tables, HBASE, HLEN and HCMD by context, the TLBs of the quay ports, the poisoned units of the second tier, and
  the cycle until which a card keeps accesses waiting (R250, R258, R259, R329). -/
  handles : Table Handle
  handleRegs : Table Word
  /-- The cycle at which the result of a context's handle request is posted (R260). -/
  handleBusy : Table Nat
  tlbs : Table Tlb
  tierPoison : List Nat
  cardBusy : Table Nat
  /-- The 64-byte units of the second tier at which a card's correction will retry, and for how many cycles (R329). -/
  cardRetries : Table Nat
  /-- The spare rows that row tests have taken by physical tile × 2^24 + bank, and the spare 4 KiB units in use by card (R372). -/
  rowSpares : Table Nat
  cardSpares : Table Nat
  /-- The free value that the last bring-up's assignment of spare rows depends on (R428; log entry 3). -/
  rowDraw : Nat
  /-- The collectives under way, and the next one's number; the parity group's number and this module's position in it
  (R418), none outside every parity group. -/
  colls : Table Coll
  nextColl : Nat
  parity : Option (Nat × Nat)
  queues : Table Queue
  tokens : Table Nat
  /-- The second tier by physical address, the four hosts' buses (host × 2^64 + bus address), and the page-table leaves by context and page. -/
  tier   : Memory
  hostMem : Memory
  pages  : Table Word
  /-- The map (R165): MAPVER, the physical row that each field column holds as its spare (5 where unlisted), and the dead
  mask of each sheaf row of each field (48 fields of 8). -/
  mapver : Nat
  spareRow : Table Nat
  deadMask : Table Nat
  /-- The sheaf shifts by field and sheaf row, the zone retirements by field column, the fields that the defect map marks dead, and
  whether the module is lost (R378, R382, R384, R386). -/
  shifts : Table (Option Shift)
  zones  : Table (Option ZoneMove)
  /-- The dead sheaves that a sheaf row's mask does not hold, by field × 8 + sheaf row (R378). -/
  lateDead : Table Nat
  deadFields : List Nat
  lost   : Bool
  topver : Nat
  drift  : BitVec 16
  /-- The correction of the timebase under way and the release cycle from which it counts; TADJ has armed one (R411). -/
  adj    : Int
  adjAt  : Nat
  tadj   : Bool
  /-- The module id, the optical ports, the lost ports of the time group with the cycle of their notice, and the group phase
  at whose end the standby tables become active (R407, R408, R426). -/
  modid  : Nat
  ports  : Table Port
  lostPorts : List (Nat × Nat × Nat)
  armed  : Option Nat
  /-- The ports of the demand domain as (module, port), ascending; the present interval, its start, its circuits by lane (the
  destination port and one) and this module's rows of the last two reports (R402, R403). -/
  domain : List (Nat × Nat)
  interval : Nat
  intervalAt : Nat
  circuits : Table Nat
  reports : List (List (List Nat))
  /-- The serving modules of the time group by 8 × parity group + position, less those lost (each as its id and one), the
  guard, the free rebuild spares, and the parity groups whose rebuild is under way with its end (R418, R421). -/
  serving : Table Nat
  guard_  : Option Nat
  spares  : List Nat
  rebuilds : Table Nat
  /-- The job map in force: the module of a rank, the physical lane of a rank's logical lane, and the modules that a GTAG's job uses; and
  the lost spares reported to the owner (R398, R421, R423). -/
  jobRanks : Table Nat
  jobPlanes : Table Nat
  jobUses : Table (List Nat)
  lostSpares : List Nat
  /-- Job maps by owner × 2^64 + the value of JOBMAP: data of the surroundings (R398, log entry 21). -/
  jobMaps : Table (Option JobMap)
  /-- Program images by the physical addresses at which BINTAB, ROUTES and REGIONS begin (`blocksKey`): data of the surroundings, for the
  spec lays no image out (log entry 4). -/
  images : Table (Option Image)
  /-- The queue served last at each priority level (R192), and the manifest of the last task of each queue (R432). -/
  served : Table Nat
  manifests : Table (Option Manifest)
  /-- The lease, BOOT.STATUS and NOHIST, the other registers of Table 22.1 by offset, the firmware's digest and the key pair
  derived from the PUF (R426-R430). -/
  lease : Lease
  boot  : Nat
  nohist : Bool
  mgmt  : Table Word
  firmware : BitVec 512
  identity : BitVec 512
  deriving DecidableEq, Repr

/-- The machine right after power-on (R34): every tile idle, no bundle issuing, nothing scheduled; the values the spec
does not give are those of log entries 1 and 2. -/
def State.reset : State :=
  { now := 0, tickOn := false, tickOff := 0, latch := Latch.none, agenda := [], order := 0, free := 0, hartAt := 0, cores := [],
    tiles := [], parts := [], links := [], waiting := [], mreds := [], handles := [], handleRegs := [], handleBusy := [], tlbs := [],
    tierPoison := [], cardBusy := [], cardRetries := [], rowSpares := [], cardSpares := [], rowDraw := 0, colls := [], nextColl := 0, parity := none, queues := [], tokens := [], tier := [], hostMem := [], pages := [], mapver := 0, spareRow := [],
    deadMask := [], shifts := [], zones := [], lateDead := [], deadFields := [], lost := false, topver := 0, drift := 0, adj := 0, adjAt := 0, tadj := false, modid := 0x3FFFF, ports := [],
    lostPorts := [], armed := none, domain := [], interval := 0, intervalAt := 0, circuits := [], reports := [],
    serving := [], guard_ := none, spares := [], rebuilds := [], jobRanks := [], jobPlanes := [], jobUses := [], lostSpares := [],
    jobMaps := [], images := [], served := [], manifests := [],
    lease := Lease.reset, boot := 0, nohist := false, mgmt := [], firmware := 0, identity := 0 }

end Sys2Proof.Machine
end

