-- ==== Sys2Proof/Machine/Table.lean ====
section
/-! DEFINITION. Reading and writing tables and byte memories in canonical form: strictly rising keys, and no entry that
holds what an unlisted key reads as. -/

namespace Sys2Proof.Machine

/-- What the table holds at `k`; `d` where nothing is listed. -/
def Table.get {α : Type} (d : α) (t : Table α) (k : Nat) : α :=
  match t with
  | [] => d
  | (j, v) :: r => if j = k then v else if k < j then d else Table.get d r k

/-- List `v` at `k`, in order. -/
def Table.put {α : Type} (t : Table α) (k : Nat) (v : α) : Table α :=
  match t with
  | [] => [(k, v)]
  | (j, u) :: r => if k < j then (k, v) :: (j, u) :: r else if j = k then (k, v) :: r else (j, u) :: Table.put r k v

/-- Unlist `k`. -/
def Table.drop {α : Type} (t : Table α) (k : Nat) : Table α :=
  match t with
  | [] => []
  | (j, u) :: r => if k < j then (j, u) :: r else if j = k then r else (j, u) :: Table.drop r k

/-- Write `v` at `k`, keeping the canonical form of a table whose unlisted keys read as `d`. -/
def Table.set {α : Type} [DecidableEq α] (d : α) (t : Table α) (k : Nat) (v : α) : Table α :=
  if v = d then Table.drop t k else Table.put t k v

/-- Change every listed value, keeping the canonical form. -/
def Table.mapped {α : Type} [DecidableEq α] (d : α) (f : Nat → α → α) (t : Table α) : Table α :=
  (t.map fun e => (e.1, f e.1 e.2)).filter fun e => decide (e.2 ≠ d)

/-- The keys rise strictly. -/
def Table.rising {α : Type} : Table α → Bool
  | [] => true
  | [_] => true
  | (i, _) :: (j, v) :: r => decide (i < j) && Table.rising ((j, v) :: r)

/-- The canonical form of a table whose unlisted keys read as `d`. -/
def Table.wf {α : Type} [DecidableEq α] (d : α) (t : Table α) : Bool :=
  Table.rising t && t.all fun e => decide (e.2 ≠ d)

/-- The canonical form of a byte memory. -/
def Memory.wf (m : Memory) : Bool := Table.wf (0 : Byte) m

/-- The byte at an address; an unlisted address reads 0 (log entry 2). -/
def Memory.read (m : Memory) (a : Nat) : Byte := Table.get (0 : Byte) m a

/-- Write one byte. -/
def Memory.write (m : Memory) (a : Nat) (b : Byte) : Memory := Table.set (0 : Byte) m a b

/-- `n` bytes from `a`, lowest address first. -/
def Memory.bytes (m : Memory) (a : Nat) : Nat → List Byte
  | 0 => []
  | n + 1 => Memory.read m a :: Memory.bytes m (a + 1) n

/-- Write a list of (address, byte) pairs, the first pair first. -/
def Memory.writeAll (m : Memory) : List (Nat × Byte) → Memory
  | [] => m
  | (a, b) :: r => Memory.writeAll (Memory.write m a b) r

/-- Bytes as a number, little-endian (R4). -/
def ofBytes : List Byte → Nat
  | [] => 0
  | b :: r => b.toNat + 256 * ofBytes r

/-- The low `n` bytes of a number, little-endian (R4). -/
def toBytes (v : Nat) : Nat → List Byte
  | 0 => []
  | n + 1 => BitVec.ofNat 8 v :: toBytes (v / 256) n

/-- `n` bytes from `a` as a number. -/
def Memory.nat (m : Memory) (a n : Nat) : Nat := ofBytes (Memory.bytes m a n)

/-- Bytes with the addresses they go to, from `a` upwards. -/
def atAddr (a : Nat) : List Byte → List (Nat × Byte)
  | [] => []
  | b :: r => (a, b) :: atAddr (a + 1) r

/-- Write a number of `n` bytes at `a`. -/
def Memory.put (m : Memory) (a v n : Nat) : Memory := Memory.writeAll m (atAddr a (toBytes v n))

/-- Zero `n` bytes from `a`. -/
def Memory.zero (m : Memory) (a n : Nat) : Memory := List.filter (fun (c : Nat × Byte) => decide (c.1 < a ∨ a + n ≤ c.1)) m

/-- The part of a memory in `[a, a + n)`. -/
def Memory.part (m : Memory) (a n : Nat) : Memory := List.filter (fun (c : Nat × Byte) => decide (a ≤ c.1 ∧ c.1 < a + n)) m

end Sys2Proof.Machine
end

