-- ==== Sys2Proof/Machine/Ops.lean ====
section
/-! DEFINITION. The shared operations over the state: units by number, the agenda, the registers of the issuing core and
its writes in flight, and taking a trap and leaving a core stopped. -/

namespace Sys2Proof.Machine

/-! ## Units by number -/

/-- A tile's column and row (R164). -/
def xOf (t : Nat) : Nat := t % 128
def yOf (t : Nat) : Nat := t / 128

def State.core (s : State) (c : Nat) : Core := Table.get Core.idle s.cores c
def State.setCore (s : State) (c : Nat) (x : Core) : State := { s with cores := Table.set Core.idle s.cores c x }
def State.onCore (s : State) (c : Nat) (f : Core → Core) : State := s.setCore c (f (s.core c))

def State.tile (s : State) (t : Nat) : Tile := Table.get Tile.idle s.tiles t
def State.setTile (s : State) (t : Nat) (x : Tile) : State := { s with tiles := Table.set Tile.idle s.tiles t x }
def State.onTile (s : State) (t : Nat) (f : Tile → Tile) : State := s.setTile t (f (s.tile t))

def State.part (s : State) (p : Nat) : Part := Table.get Part.none s.parts p
def State.setPart (s : State) (p : Nat) (x : Part) : State := { s with parts := Table.set Part.none s.parts p x }
def State.onPart (s : State) (p : Nat) (f : Part → Part) : State := s.setPart p (f (s.part p))

/-- The tile of a core: cores 2t and 2t + 1 are those of tile t (R11). -/
def tileOf (c : Nat) : Nat := c / 2

/-- The core that is issuing, and its tile. -/
def State.me (s : State) : Core := s.core s.latch.core
def State.here (s : State) : Nat := tileOf s.latch.core

/-- TICK at cycle `c` (R186), with the correction under way (R411): a negative one holds the count until it is met. -/
def State.tickAt (s : State) (c : Nat) : Nat :=
  if !s.tickOn then 0
  else
    let t : Int := c + s.tickOff
    let v := if c ≤ s.adjAt then t else max (s.adjAt + s.tickOff) (t + s.adj)
    (BitVec.ofInt 64 v).toNat

/-- TICK at the present cycle. -/
def State.tick (s : State) : Word := BitVec.ofNat 64 (s.tickAt s.now)

/-- SCYC of a core at the present cycle: 32 bits (R172, R184). -/
def State.scyc (s : State) (c : Nat) : Nat := (s.now - (s.core c).relAt) % 2 ^ 32

/-- The next free value's number (log entry 3). -/
def State.draw (s : State) : State := { s with free := s.free + 1 }

/-! ## The agenda -/

/-- `a` comes before `b` in the agenda: by cycle, then rank, then order. -/
def Ev.before (a b : Ev) : Bool :=
  decide (a.at_ < b.at_) || (decide (a.at_ = b.at_) &&
    (decide (a.rank < b.rank) || (decide (a.rank = b.rank) && decide (a.key ≤ b.key))))

/-- Put a step in its place. -/
def insertEv (e : Ev) : List Ev → List Ev
  | [] => [e]
  | x :: r => if x.before e then x :: insertEv e r else e :: x :: r

/-- The ranks of a cycle: releases and map changes, landings, samples, performs (the weakest first, R234, R269), with the
flits that enter links before the stores, issue, bookkeeping, and last the bounds of the waits that a cycle's arrivals move (R181). -/
def rankRelease : Nat := 0
def rankLand : Nat := 1
def rankSample : Nat := 2
def rankStream : Nat := 3
def rankQuay : Nat := 4
def rankColl : Nat := 5
def rankChannel : Nat := 6
def rankLink : Nat := 7
def rankStore : Nat := 8
def rankIssue : Nat := 9
def rankAfter : Nat := 10
def rankBound : Nat := 11

/-- Schedule a step with an order of its own among equals. -/
def State.postKey (s : State) (at_ rank key : Nat) (e : Event) : State :=
  { s with agenda := insertEv { at_ := at_, rank := rank, key := key, ev := e } s.agenda }

/-- Schedule a step after those already due at its cycle and rank. -/
def State.post (s : State) (at_ rank : Nat) (e : Event) : State :=
  { s.postKey at_ rank s.order e with order := s.order + 1 }

/-- Everything of the present cycle but the bounds of waits has happened. -/
def State.cycleOver (s : State) : Bool :=
  match s.agenda with
  | [] => true
  | e :: _ => decide (s.now < e.at_) || decide (rankAfter < e.rank)

/-- Take steps out of the agenda. -/
def State.dropEvents (s : State) (p : Ev → Bool) : State := { s with agenda := s.agenda.filter fun e => !p e }

/-! ## Registers (R12, R13, R30) -/

/-- The physical register of a vector name: the ring of R30. -/
def physical (rot rr n : Nat) : Nat := if n < 8 * rot then (n + rr) % (8 * rot) else n

def Regs.phys (r : Regs) (f : VFile) (n : Nat) : Nat :=
  match f with
  | .v => physical r.rotv r.rrbv n
  | .w => physical r.rotw r.rrbw n

/-- A vector register's identity. -/
def vecId (f : VFile) (n : Nat) : RegId :=
  match f with
  | .v => .v n
  | .w => .w n

/-- The value a register holds, as 512 bits; the zero registers read 0, p0 reads 1 (R12, R13). -/
def Regs.get (r : Regs) : RegId → Vec
  | .k n => if n = 0 then 0 else (Table.get (0 : Word) r.k n).setWidth 512
  | .a n => if n = 0 then 0 else (Table.get (0 : Word) r.a n).setWidth 512
  | .x n => if n = 0 then 0 else (Table.get (0 : Word) r.x n).setWidth 512
  | .v n => Table.get (0 : Vec) r.v n
  | .w n => Table.get (0 : Vec) r.w n
  | .p n => if n = 0 ∨ r.p.getLsbD n then 1 else 0

/-- Bit `n` of the predicates set to `b`. -/
def setPred (p : BitVec 16) (n : Nat) (b : Bool) : BitVec 16 :=
  if b then p ||| BitVec.ofNat 16 (2 ^ n) else p &&& ~~~ BitVec.ofNat 16 (2 ^ n)

/-- Write a register; a write of a zero register or of p0 is discarded (R12, R13). -/
def Regs.put (r : Regs) (d : RegId) (v : Vec) : Regs :=
  match d with
  | .k n => if n = 0 then r else { r with k := Table.set (0 : Word) r.k n (v.setWidth 64) }
  | .a n => if n = 0 then r else { r with a := Table.set (0 : Word) r.a n (v.setWidth 64) }
  | .x n => if n = 0 then r else { r with x := Table.set (0 : Word) r.x n (v.setWidth 64) }
  | .v n => { r with v := Table.set (0 : Vec) r.v n v }
  | .w n => { r with w := Table.set (0 : Vec) r.w n v }
  | .p n => if n = 0 ∨ 15 < n then r else { r with p := setPred r.p n (v.getLsbD 0) }

/-- The core's register values at the present cycle. -/
def State.k (s : State) (n : BitVec 5) : Word := (s.me.regs.get (.k n.toNat)).setWidth 64
def State.a (s : State) (n : BitVec 5) : Word := (s.me.regs.get (.a n.toNat)).setWidth 64
def State.x (s : State) (n : BitVec 4) : Word := (s.me.regs.get (.x n.toNat)).setWidth 64
def State.p (s : State) (n : BitVec 4) : Bool := (s.me.regs.get (.p n.toNat)).getLsbD 0

/-! ## Stream windows as registers (R15, R140) -/

/-- The engines a core owns (R11, Table 1.1). -/
def Core.engines (c : Core) : List Nat := if c.split then (if c.coreNo = 0 then [0, 1, 2, 3] else [4, 5]) else [0, 1, 2, 3, 4, 5]

/-- The register that a binding names. -/
def Binding.reg : Binding → Option (VFile × Nat × Bool)
  | .sgo => none
  | .input f r => some (f, r, false)
  | .output f r => some (f, r, true)

/-- The engine to which a core's register is bound, its transfer, and whether as an output. -/
def State.bound (s : State) (c : Nat) (r : RegId) : Option (Nat × Transfer × Bool) :=
  (s.core c).engines.findSome? fun e =>
    (Table.get Engine.reset (s.tile (tileOf c)).engines e).all.findSome? fun t =>
      match t.bind.reg with
      | none => none
      | some (f, n, out) => if !t.unbound && !t.masked && decide (vecId f n = r) then some (e, t, out) else none

/-- The value that the issuing bundle reads from a vector register: what it popped, or the register (R140). -/
def State.vec (s : State) (f : VFile) (n : Nat) : Vec :=
  let r := vecId f (s.me.regs.phys f n)
  match s.latch.pops.find? fun e => decide (e.1 = r) with
  | some e => e.2
  | none => s.me.regs.get r

/-- The vector file of a V or W slot. -/
def vfileOf : Slot → VFile
  | .w => .w
  | _ => .v

/-- The lane value source of the running vector slot. -/
def State.src (s : State) (n : BitVec 10) : Vec := s.vec (vfileOf s.latch.slot) n.toNat

/-! ## Writes in flight (R22, R23) -/

/-- The registers whose writes are discarded (R12, R13). -/
def RegId.zero : RegId → Bool
  | .k n | .a n | .x n | .p n => decide (n = 0)
  | _ => false

/-- Write `v` into register `r` of core `c`, readable `lat` cycles from now: a flight, which lands at its cycle. A write to
a register bound as an output window pushes (R140); `prio` orders the writes of one bundle (R23). -/
def State.fly (s : State) (c prio lat : Nat) (r : RegId) (v : Vec) : State :=
  let dest := match s.bound c r with
    | some (e, t, true) => Dest.push r e t.id
    | _ => Dest.reg r
  let f : Flight := { land := s.now + lat, seq := s.latch.seq, prio := prio, dest := dest, val := v }
  if r.zero then s
  else (s.onCore c fun x => { x with regs := { x.regs with flights := x.regs.flights ++ [f] } }).post (s.now + lat) rankLand (.resultLanding c)

/-- The slot's own result (R23). -/
def State.write (s : State) (lat : Nat) (r : RegId) (v : Vec) : State := s.fly s.latch.core 0 lat r v

def State.writeK (s : State) (lat : Nat) (d : BitVec 5) (v : Word) : State := s.write lat (.k d.toNat) (v.setWidth 512)
def State.writeA (s : State) (lat : Nat) (d : BitVec 5) (v : Word) : State := s.write lat (.a d.toNat) (v.setWidth 512)
def State.writeX (s : State) (lat : Nat) (d : BitVec 4) (v : Word) : State := s.write lat (.x d.toNat) (v.setWidth 512)
def State.writeP (s : State) (lat : Nat) (d : BitVec 4) (b : Bool) : State := s.write lat (.p d.toNat) (if b then 1 else 0)

/-- The vector destination of the running slot, resolved through the ring at issue (R22, R30). -/
def State.dst (s : State) (d : BitVec 10) : RegId :=
  let f := (vfileOf s.latch.slot)
  vecId f (s.me.regs.phys f d.toNat)

def State.writeV (s : State) (lat : Nat) (d : BitVec 10) (v : Vec) : State := s.write lat (s.dst d) v

/-- Flags ORed into FFLAGS at issue + `lat` (R83). -/
def State.raise (s : State) (lat flags : Nat) : State :=
  if flags = 0 then s
  else
    let f : Flight :=
      { land := s.now + lat, seq := s.latch.seq, prio := 0, dest := .flags, val := BitVec.ofNat 512 flags }
    (s.onCore s.latch.core fun x => { x with regs := { x.regs with flights := x.regs.flights ++ [f] } }).post
      (s.now + lat) rankLand (.resultLanding s.latch.core)

/-! ## Segments (R249, R356-R360) -/

/-- Segments exist in protected mode only (R356, R371). -/
def Core.segments (c : Core) : Bool := !c.split

/-- The bytes of the withheld items (WHLEVEL, R249). -/
def Core.whlevel (c : Core) : Nat := c.held.foldl (fun n h => n + h.bytes) 0

/-- Close the open segment; it commits 3 cycles later (R356, R358). -/
def State.closeSegment (s : State) (c : Nat) : State :=
  match (s.core c).segOpen with
  | none => s
  | some n =>
    (s.onCore c fun x => { x with segOpen := none }).post (s.now + 3) rankStore (.segmentCommit c n)

/-! ## Taking a trap (R349, R351, R354) -/

/-- The address of the handler slot of cause `n` (R350); a follower's cause enters at its original cause's slot. -/
def handlerSlot (thvec : CodeAddr) (n : Nat) : CodeAddr :=
  thvec + BitVec.ofNat 32 (4 * (if 0x80 ≤ n then n - 0x80 else n))

/-- Write the trap state (R349). -/
def Regs.trapped (r : Regs) (addr : CodeAddr) (t : TrapInfo) : Regs :=
  { r with
    tcause := BitVec.ofNat 8 t.cause, tpc := addr, tinfo0 := BitVec.ofNat 64 t.t0, tinfo1 := BitVec.ofNat 64 t.t1,
    tinfo2 := BitVec.ofNat 64 t.t2, imp := t.imp }

/-! ## Handles in use (R259-R265) -/

def handleKey (ctx slot : Nat) : Nat := ctx * 1024 + slot
def State.handle (s : State) (ctx slot : Nat) : Handle := Table.get Handle.reset s.handles (handleKey ctx slot)
def State.setHandle (s : State) (ctx slot : Nat) (h : Handle) : State :=
  { s with handles := Table.set Handle.reset s.handles (handleKey ctx slot) h }

/-- An operation is counted in its handle's slot, or has completed there: a freed slot is free the cycle after (R261). -/
def State.countHandle (s : State) (ctx h : Nat) : State :=
  let x := s.handle ctx (h / 256)
  s.setHandle ctx (h / 256) { x with count := x.count + 1 }
def State.uncountHandle (s : State) (ctx h : Nat) : State :=
  let x := s.handle ctx (h / 256)
  let s1 := s.setHandle ctx (h / 256) { x with count := x.count - 1 }
  if x.state = .freeing ∧ x.count ≤ 1 then s1.post (s.now + 1) rankQuay (.handleSlotFreed ctx (h / 256)) else s1

/-- The queues whose INVAL or MAP waits for a drain look again (R265). -/
def State.recheckDrains (s : State) : State :=
  s.queues.foldl (fun z e =>
    match e.2.block with
    | .drain => z.post z.now rankAfter (.invalDrainEnd e.1)
    | _ => z) s

/-- The operation that a wait holds for want of room in its queue (R320) or of its rows (R326), with its queue and its XD. -/
def Wait.heldTask (w : Wait) : Option (Nat × QuayTask × Nat) :=
  match w.what with
  | .quay q k xd => some (q, k, xd)
  | _ => none

/-- The operations that a core holds outside its queues, or with rows still to sample. -/
def Core.heldTasks (x : Core) : List (Nat × QuayTask × Nat) :=
  (x.waits ++ x.savedWaits).filterMap Wait.heldTask ++ (x.startLog ++ x.replay).filterMap LogEntry.held

/-- The key under which an operation pins entries. -/
def pinKey (t id : Nat) : Nat := id * 2 ^ 14 + t

/-- The port of an edge tile (R251). -/
def portOf (t : Nat) : Nat := if xOf t = 0 then yOf t / 2 else 40 + yOf t / 2

/-- The page of an entry is still translated so: a miss has not taken its place, and no INVAL or MAP has hit it. -/
def TlbEntry.lives (e : TlbEntry) : Bool := !e.dying && !e.leaving

/-- The entries beyond the 256 of a TLB that nothing holds go, the least recently used first (an operation of more pages than that). -/
def Tlb.trim (es : List TlbEntry) : List TlbEntry :=
  let extra := (es.filter fun e => !e.leaving).length - 256
  let idle := es.reverse.filter fun e => e.pins.isEmpty
  (idle.take extra).foldl List.erase es

/-- An operation has completed: its pins go, and with its last pin an entry that is dying or leaving. -/
def Tlb.unpin (t : Tlb) (key : Nat) : Tlb :=
  { t with
    entries := Tlb.trim ((t.entries.map fun e => { e with pins := e.pins.filter fun x => decide (x.1 ≠ key) }).filter fun e =>
      e.lives || !e.pins.isEmpty) }

def State.tlb (s : State) (port : Nat) : Tlb := Table.get Tlb.reset s.tlbs port
def State.setTlb (s : State) (port : Nat) (t : Tlb) : State := { s with tlbs := Table.set Tlb.reset s.tlbs port t }

def State.quay (s : State) (t q : Nat) : QuayQueue := Table.get QuayQueue.reset (s.tile t).quays q
def State.setQuay (s : State) (t q : Nat) (x : QuayQueue) : State :=
  s.onTile t fun y => { y with quays := Table.set QuayQueue.reset y.quays q x }

def State.setTokens (s : State) (t tid : Nat) (l : List Token) : State :=
  s.onTile t fun x => { x with tokens := Table.set [] x.tokens tid l }

/-- A gather that entered its queue with rows still to sample leaves it: its entry, its events, its slots, its token and its pins go. -/
def State.leaveQueue (s : State) (t q : Nat) (k : QuayTask) : State :=
  let x := s.quay t q
  let s1 := (s.setQuay t q { x with tasks := x.tasks.filter fun j => decide (j.id ≠ k.id) }).dropEvents fun v => match v.ev with
    | .quayUnit t1 q1 n _ _ | .quayComplete t1 q1 n => decide (t1 = t ∧ q1 = q ∧ n = k.serial)
    | _ => false
  let s2 := s1.setTokens t k.tid ((Table.get [] (s1.tile t).tokens k.tid).filter fun tk => decide (tk.id ≠ k.id))
  (s2.onTile t fun y => { y with given := y.given.drop k.slots.length }).setTlb (portOf t) ((s2.tlb (portOf t)).unpin (pinKey t k.id))

/-- Held operations of core `c` are given up: they will never perform, and count no longer (R262). -/
def State.giveUp (s : State) (c : Nat) (ks : List (Nat × QuayTask × Nat)) : State :=
  match ks with
  | [] => s
  | ks => (ks.foldl (fun z e =>
      (if e.2.1.start.isSome then z.leaveQueue (tileOf c) e.1 e.2.1 else z).uncountHandle e.2.1.ctx e.2.1.handle) s).recheckDrains

/-- Core `c` gives up its waits, and with them whatever operations it holds. -/
def State.dropWaits (s : State) (c : Nat) : State :=
  (s.giveUp c (s.core c).heldTasks).onCore c fun x => { x with
    waits := [], savedWaits := [], startLog := x.startLog.filter fun e => e.held.isNone, replay := x.replay.filter fun e => e.held.isNone }

/-- Stop a core (R354): it issues no further bundle, and what was scheduled for its issue no longer holds. -/
def State.stopCore (s : State) (c : Nat) : State :=
  (s.dropWaits c).onCore c fun x => { x with status := .stopped, gen := x.gen + 1, pending := [] }

/-- The half that does not hold the bundle issued last (R41). -/
def Core.other (c : Core) : Option Half := if c.half then c.half0 else c.half1

def Core.setOther (c : Core) (h : Option Half) : Core := if c.half then { c with half0 := h } else { c with half1 := h }

/-- Taking a trap in program mode (R349): the trap state, the pending extensions, transfer and wait saved, handler mode,
and the handler's first bundle 16 cycles on. `entry` is the cause whose slot is entered (R352). -/
def State.enterHandler (s : State) (c : Nat) (addr : CodeAddr) (t : TrapInfo) (entry : Nat) : State :=
  let s1 := s.closeSegment c
  let s2 := s1.onCore c fun x =>
    { x with
      regs := { x.regs.trapped addr t with exts := [], xfer := none },
      hm := true, gen := x.gen + 1,
      savedExts := x.regs.exts, savedXfer := x.regs.xfer, savedWaits := x.waits, waits := [],
      pending := [], dropped := x.pending, sleepTo := none, slip := none, pc := handlerSlot x.thvec entry, origin := none, areaEnd := false, due := s.now + 16, served := false }
  s2.post (s.now + 16) rankIssue (.handlerEntry c (s2.core c).gen)

/-- Suppress the bundle that is issuing. -/
def State.suppress (s : State) : State := { s with latch := Latch.none }

/-! ## Event rings (R206) -/

def State.queue (s : State) (q : Nat) : Queue := Table.get Queue.reset s.queues q
def State.setQueue (s : State) (q : Nat) (x : Queue) : State := { s with queues := Table.set Queue.reset s.queues q x }
def State.onQueue (s : State) (q : Nat) (f : Queue → Queue) : State := s.setQueue q (f (s.queue q))

/-- The page-table leaf of a device virtual address in a context (R253); 0 where nothing is mapped. -/
def State.leaf (s : State) (ctx va : Nat) : Word := Table.get (0 : Word) s.pages (ctx * 2 ^ 27 + va / 2 ^ 21 % 2 ^ 27)

/-- The physical address of a device virtual address; none where no valid leaf maps it (R253, R254). -/
def State.translate (s : State) (ctx va : Nat) : Option Nat :=
  let e := s.leaf ctx va
  if va < 2 ^ 48 ∧ e.getLsbD 63 then some (fld e.toNat 0 23 * 2 ^ 21 + va % 2 ^ 21) else none

/-- A host bus address, over the owner's link (R425). -/
def State.bus (s : State) (a : Nat) : Nat := s.lease.owner * 2 ^ 64 + a

/-- Write `n` bytes of `v` at an address of a queue's ring space: host memory, or its context's second tier. -/
def State.ringWrite (s : State) (host : Bool) (ctx a v n : Nat) : Option State :=
  if host then some { s with hostMem := Memory.put s.hostMem (s.bus a) v n }
  else (s.translate ctx a).map fun pa => { s with tier := Memory.put s.tier pa v n }

/-- The event ring is full. -/
def Queue.ringFull (x : Queue) : Bool := decide ((x.evtail + 128 - x.evhead) % 128 = 64)

/-- Write an event's records, each 64 bytes, into queue `q`'s ring: the first that finds it full is dropped with those after it, and
sets EVOVF (R206). A record whose place is not mapped is lost, and EVTAIL advances (DESIGN CHOICE, log entry 53). -/
def State.records (s : State) (q : Nat) : List Nat → State
  | [] => s
  | r :: rs =>
    let y := s.queue q
    if y.ringFull then s.setQueue q { y with evovf := true }
    else
      let s1 := (s.ringWrite y.host q (y.evt + 64 * (y.evtail % 64)) r 64).getD s
      (s1.onQueue q fun z => { z with evtail := (z.evtail + 1) % 128 }).records q rs

/-! ## Coordinates (R164, R68) -/

/-- A tile's column and row relative to its partition's origin (R76). -/
def Part.lx (p : Part) (t : Nat) : Nat := (xOf t + 128 - 2 * p.ox) % 128
def Part.ly (p : Part) (t : Nat) : Nat := (yOf t + 80 - 2 * p.oy) % 80

/-- The relative TID (R68). -/
def Part.rel (p : Part) (t : Nat) : Nat := p.ly t * 128 + p.lx t

/-- The tile at a relative TID. -/
def Part.abs (p : Part) (r : Nat) : Nat := (2 * p.oy + r / 128) % 80 * 128 + (2 * p.ox + r % 128) % 128

/-- The tiles of a partition, in ascending relative TID. -/
def Part.tiles (p : Part) : List Nat :=
  (List.range (2 * p.height)).flatMap fun ly =>
    (List.range (2 * p.width)).map fun lx => p.abs (ly * 128 + lx)

/-- The cores of a partition: one of each tile, or two in split mode. -/
def Part.cores (p : Part) : List Nat :=
  p.tiles.flatMap fun t => if p.hdr.split then [2 * t, 2 * t + 1] else [2 * t]

/-- The members of a core's gang, lead first (R168). -/
def gangTiles (gsize t : Nat) : List Nat :=
  match gsize with
  | 0 => [t]
  | 1 =>
    let b := yOf t / 2 * 2 * 128 + xOf t / 2 * 2
    [b, b + 1, b + 128, b + 129]
  | _ =>
    let b := yOf t / 4 * 4 * 128 + xOf t / 4 * 4
    (List.range 16).map fun p => b + p / 4 * 128 + p % 4

/-- The partition of a core. -/
def State.partOf (s : State) (c : Nat) : Part :=
  match (s.core c).part with
  | some p => s.part p
  | none => Part.none

/-- The physical field row of a logical zone row (R165). -/
def State.fieldRow (s : State) (fcol zrow : Nat) : Nat := if zrow < Table.get 5 s.spareRow fcol then zrow else zrow + 1

/-- The physical sheaf column of a logical one under a dead mask: the first set bit shifts the rest (R165). -/
def shiftCol (mask j : Nat) : Nat := if (List.range (j + 1)).any fun d => decide (fld mask d 1 = 1) then j + 1 else j

def State.mask (s : State) (fcol frow srow : Nat) : Nat := Table.get 0 s.deadMask ((fcol * 6 + frow) * 8 + srow)

/-- The physical field row of a tile: a zone's tiles see its move from their own partition's release on (R383). -/
def State.tileRow (s : State) (t : Nat) : Nat :=
  let fcol := xOf t / 16
  let zrow := yOf t / 16
  match Table.get none s.zones fcol with
  | none => s.fieldRow fcol zrow
  | some z =>
    let seen := match (s.core (2 * t)).part with
      | some pid => z.seen.contains pid
      | none => false
    if decide (z.rows.head? = some zrow) && seen then Table.get 5 s.spareRow fcol else s.fieldRow fcol zrow

/-- The physical position of a logical tile, in the layout of PTID (R165, Table 1.8). -/
def State.ptid (s : State) (t : Nat) : Nat :=
  let x := xOf t
  let y := yOf t
  let frow := s.tileRow t
  let srow := y % 16 / 2
  let scol := shiftCol (s.mask (x / 16) frow srow) (x % 16 / 2)
  x / 16 * 2 ^ 12 + frow * 2 ^ 9 + scol * 2 ^ 5 + srow * 2 ^ 2 + (x % 2 + 2 * (y % 2))

/-! ## Stopping (R354) and the double trap (R351) -/

/-- A record's bits: those that the spec names, and free ones for the rest (log entry 3). -/
def mixBits (free : BitVec 512) (named v : Nat) : Nat := (free &&& ~~~ BitVec.ofNat 512 named).toNat + v % 2 ^ 512

/-- Write a record of which the spec names the bits `named`. -/
def State.freeRecord (s : State) (q named v : Nat) : State := s.draw.records q [mixBits (Config.freeBits s.free) named v]

/-- A record that gives only its kind and PID (R206). -/
def State.bareRecord (s : State) (q kind pid : Nat) : State := s.freeRecord q 0xFFFF00FF (pid * 2 ^ 16 + kind)

/-- A WAITTOK's condition (R196). -/
def tokenHolds (tok value : Nat) : Bool := decide ((tok + 2 ^ 32 - value % 2 ^ 32) % 2 ^ 32 < 2 ^ 31)

def State.token (s : State) (t : Nat) : Nat := Table.get 0 s.tokens t

/-- Add to a token and wake the queues that it releases (R193, R196, R197). -/
def State.addToken (s : State) (t add : Nat) : State :=
  let s1 := { s with tokens := Table.set 0 s.tokens t ((s.token t + add) % 2 ^ 32) }
  (List.range 16).foldl (fun z q =>
    match (z.queue q).block with
    | .token tok v => if tok = t ∧ tokenHolds (z.token t) v then z.post z.now rankAfter (.waittokRelease q) else z
    | _ => z) s1

/-- The command processor tries its waiting launches again (R202). -/
def State.retryPlacement (s : State) : State :=
  (List.range 16).foldl (fun z q =>
    match (z.queue q).block with
    | .place => (z.post (z.now + Config.hartDelay z.free) rankAfter (.launchPlacement q)).draw
    | _ => z) s

/-- One second. -/
def second : Nat := 1200000000

/-- A queue is idle from now on where its ring is empty with a LOOPC open: it halts after a second (R195). -/
def State.idleFrom (s : State) (q : Nat) : State :=
  let x := s.queue q
  if x.block = .none ∧ x.head = x.tail % 2 ^ x.log2 ∧ (!x.loops.isEmpty ∨ x.seek ≠ 0) then
    (s.setQueue q { x with idleAt := s.now }).post (s.now + second) rankAfter (.loopcIdleTimeout q)
  else s

/-- A queue's command lets it proceed. -/
def State.unblock (s : State) (q : Nat) : State := (s.onQueue q fun x => { x with block := .none }).idleFrom q

/-- The queues that wait for the end of partition `pid` go on: PREEMPTs of it (R203), and SELFTESTs look again (R388). -/
def State.wakeQueues (s : State) (pid : Nat) : State :=
  (List.range 16).foldl (fun z q =>
    match (z.queue q).block with
    | .preempt p => if p = pid then z.unblock q else z
    | .testWait scope tile => z.post z.now rankAfter (.selftestComplete q scope tile false)
    | _ => z) s

/-- The manifest of the task of partition `pid` is final (R432). -/
def State.closeManifest (s : State) (pid : Nat) : State :=
  let p := s.part pid
  match Table.get none s.manifests p.queue with
  | some m =>
    if m.live ∧ m.pid = pid then
      { s with manifests := Table.set none s.manifests p.queue (some { m with live := false, touched := p.touched, csr5 := p.csr5 }) }
    else s
  | none => s

/-- The rows and the mark of a tile outside every partition are looked at now (R374, R376). -/
def State.testOutside (s : State) (t : Nat) : State :=
  if (s.core (2 * t)).part.isNone ∧ (!(s.tile t).testRows.isEmpty ∨ (s.tile t).marked.isSome) then
    s.post s.now rankAfter (.selftestComplete 17 0 t false)
  else s

/-- Take a core out of its partition: it issues no further bundle, and its registers stay; rows queued in its tile, and a mark, are looked
at now (R374, R376). -/
def State.releaseCore (s : State) (c : Nat) : State :=
  ((s.dropWaits c).onCore c fun x => { x with
    status := .idle, gen := x.gen + 1, part := none, slip := none, arriving := none, came := none, pending := [], endAt := none,
    forced := none }).testOutside (tileOf c)

/-- The rectangle of partition `pid` is freed: its cores are in no partition, the queues that wait for its end go on, the moves
that wait for it look again, and what collectives it has not committed are abandoned (R203, R354). -/
def State.freeRect (s : State) (pid : Nat) : State :=
  let s1 := (s.part pid).cores.foldl State.releaseCore (s.closeManifest pid)
  let s2 := (s1.setPart pid Part.none).wakeQueues pid
  let s3 := s2.shifts.foldl (fun z e => match e.2 with
    | some x => if x.owner = some pid then z.post z.now rankAfter (.sheafShiftStep (e.1 / 8) (e.1 % 8) x.step) else z
    | none => z) s2
  let s4 := s3.zones.foldl (fun z e => match e.2 with
    | some x => z.post z.now rankAfter (.zoneMove e.1 (x.rows.headD 0))
    | none => z) s3
  s4.colls.foldl (fun z e =>
    if (e.2.parts.any fun k => (s.part pid).cores.contains k.core) ∧ !e.2.commit then z.post z.now rankColl (.collectiveAbort e.1 4) else z) s4

/-- The task of partition `pid` completes (R190, R354): its rectangle is freed, its token signalled, its completion recorded, and
waiting launches tried again. -/
def State.endPartition (s : State) (pid : Nat) : State :=
  let p := s.part pid
  let s1 := s.freeRect pid
  let s2 := match p.token with
    | some (q, t) => s1.addToken (16 * q + t) 1
    | none => s1
  (s2.bareRecord p.queue 1 pid).retryPlacement

/-- Every tile of partition `pid` stops, and the task completes once the quay operations and the committed collectives of its tiles are
done (R284, R354). -/
def State.endStopped (s : State) (pid : Nat) : State :=
  let cs := (s.part pid).cores
  ((cs.foldl State.stopCore s).onPart pid fun p => { p with ending := true }).post s.now rankAfter (.endArrival (cs.headD 0) s.now)

/-- The bits of a record of kind 3 that R354 names. -/
def escNamed : Nat := 2 ^ 352 - 1 - 0xFF00 - 3 * 2 ^ 78 - 0xFF * 2 ^ 88

/-- The record of kind 3 that an ESC writes (R354). -/
def escRecord (pid phase rel n : Nat) (r : Regs) : Nat :=
  3 + pid * 2 ^ 16 + phase * 2 ^ 32 + rel * 2 ^ 64 + r.tcause.toNat * 2 ^ 80 + r.tpc.toNat * 2 ^ 96 +
    n * 2 ^ 128 + r.tinfo0.toNat * 2 ^ 160 + r.tinfo1.toNat * 2 ^ 224 + r.tinfo2.toNat * 2 ^ 288

/-- Stop a tile as `esc n` does (R354): the open segment commits, the tile's cores stop, the record is written, and the command
processor's answer is scheduled: a round restore when n[31] is set or the cause is 0x18, else the partition's end. -/
def State.escape (s : State) (c n : Nat) : State :=
  let s0 := (s.closeSegment c).stopCore c
  let s1 := if (s.core c).split then s0.stopCore (4 * tileOf c + 1 - c) else s0
  match (s.core c).part with
  | none => s1
  | some pid =>
    let p := s.part pid
    let x := s.core c
    let s2 := s1.freeRecord p.queue escNamed (escRecord pid x.phase (p.rel (tileOf c)) n x.regs)
    if n ≥ 2 ^ 31 ∨ x.regs.tcause = 0x18 then
      (s2.post (s.now + Config.hartDelay s2.free) rankAfter (.roundRestore pid none)).draw
    else s2.endStopped pid

/-- TAKING A TRAP (R348, R349, R351): in program mode the handler is entered; in handler mode the second trap's state is
written and the tile stops as by `esc 0`; cause 0x18 stops the tile and never enters the handler. -/
def State.takeTrapAs (s : State) (c : Nat) (addr : CodeAddr) (t : TrapInfo) (entry : Nat) : State :=
  if t.cause = 0x18 then
    (s.onCore c fun x => { x with regs := x.regs.trapped addr t }).escape c (2 ^ 31)
  else if (s.core c).hm then
    (s.onCore c fun x => { x with regs := x.regs.trapped addr t }).escape c 0
  else s.enterHandler c addr t entry

def State.takeTrap (s : State) (c : Nat) (addr : CodeAddr) (t : TrapInfo) : State := s.takeTrapAs c addr t t.cause

/-- A precise trap on the bundle that is issuing: the bundle is suppressed whole (R348). -/
def State.trapNow (s : State) (t : TrapInfo) : State := s.suppress.takeTrap s.latch.core s.latch.addr t

/-- A precise trap's record. -/
def trapInfo (cause t0 t1 t2 : Nat) : TrapInfo := { cause := cause, t0 := t0, t1 := t1, t2 := t2, imp := false }

/-- The number of a slot in a trap's details: 0 K to 4 X. -/
def slotNo : Slot → Nat
  | .k => 0 | .m => 1 | .v => 2 | .w => 3 | .x => 4

/-- The 0x01 of the running slot (Table 18.1). -/
def State.illegal (s : State) : TrapInfo := trapInfo 0x01 s.latch.word (slotNo s.latch.slot) 0

/-- The 0x03 of the running slot (Table 18.1). -/
def State.phaseIllegal (s : State) : TrapInfo := trapInfo 0x03 s.latch.word (slotNo s.latch.slot) 0

/-- The meaning of a slot form: the first of its causes, or its effect (R64, R348). -/
def State.attempt (s : State) (cause : Option TrapInfo) (effect : State → State) :
    Host.Outcome State Fault Refusal :=
  .next (match cause with
    | some t => s.trapNow t
    | none => effect s)

end Sys2Proof.Machine
end

