-- ==== Sys2Proof/Machine/Operands.lean ====
section
/-! DEFINITION. The operand forms: guards, extended immediates, effective addresses, the region checks, and the reads of
the tile store that a core makes (R16, R17-R19, R56, R117, R118, R129). -/

namespace Sys2Proof.Machine

/-! ## Guards and immediates -/

/-- The guard of a slot word reads true (R16, R48). -/
def Regs.guard (r : Regs) (gn : Bool) (gp : BitVec 4) : Bool := xor gn ((r.get (.p gp.toNat)).getLsbD 0)

/-- The payload that the running slot received (R56). -/
def State.ext (s : State) : Option (BitVec 51) :=
  (s.latch.exts.find? fun e => decide (e.1 = s.latch.slot)).map fun e => e.2.payload

/-- A 32-bit immediate: sign-extended, or under the payload of an extension (R56, R91). -/
def State.imm32 (s : State) (i : BitVec 32) : Word :=
  match s.ext with
  | none => i.signExtend 64
  | some p => (p.setWidth 32 ++ i : BitVec 64)

/-- A 24-bit immediate of CMPI (R92). -/
def State.imm24 (s : State) (i : BitVec 24) : Word :=
  match s.ext with
  | none => i.signExtend 64
  | some p => (p.setWidth 40 ++ i : BitVec 64)

/-- The count of a LOOPI (R100). -/
def State.imm18 (s : State) (i : BitVec 18) : BitVec 32 :=
  match s.ext with
  | none => i.setWidth 32
  | some p => (p.setWidth 14 ++ i : BitVec 32)

/-- A 23-bit immediate of VADDI and VMOVI (R145). -/
def State.imm23 (s : State) (i : BitVec 23) : Int :=
  match s.ext with
  | none => i.toInt
  | some p => (((p.setWidth 9 ++ i : BitVec 32).toNat : Nat) : Int)

/-! ## Addresses (R117) -/

/-- The address a load or store forms, as a 64-bit value. -/
def State.ea (s : State) (m : MemOp) : Word := if m.post then s.a m.base else s.a m.base + m.off.signExtend 64

/-- The post-update of the base, readable one cycle on. -/
def State.postUpdate (s : State) (m : MemOp) : State :=
  if m.post then s.writeA 1 m.base (s.a m.base + m.off.signExtend 64) else s

/-! ## Regions (R17-R19, R118) -/

/-- A valid region holds the byte at `a`. -/
def Region.holds (r : Region) (a : Nat) : Bool :=
  decide (r.size ≠ 0) && decide (r.base ≤ a) && decide (a < r.base + r.size * 4096)

/-- The region that holds a byte. -/
def regionOf (rs : List Region) (a : Nat) : Option Region := rs.find? fun r => r.holds a

/-- All of `n` bytes at `a` lie in the one region. -/
def Region.covers (r : Region) (a n : Nat) : Bool := r.holds a && (decide (n ≤ 1) || r.holds (a + n - 1))

/-- What an access asks of a region's KIND (Table 1.4). -/
inductive Access where
  | load | store | decode
  deriving DecidableEq, Repr

/-- The KIND and flags permit the access (R19, R118). -/
def Region.permits (r : Region) (w : Access) : Bool :=
  match w with
  | .load => decide (r.kind ≤ 2) || decide (r.kind = 4)
  | .decode => decide (r.kind ≤ 2)
  | .store => decide (r.kind ≤ 2) && !r.ro

/-- The 0x0A of an access of `n` bytes at `a`, aligned to `al`; TINFO1 bits 0 and 2 (R19, R118). -/
def accessFault (rs : List Region) (w : Access) (a n al : Nat) : Option TrapInfo :=
  let mis := decide (a % al ≠ 0)
  match regionOf rs a with
  | none => some (trapInfo 0x0A a (4 * bitOf mis) 0)
  | some r => if mis || !r.covers a n || !r.permits w then some (trapInfo 0x0A a (1 + 4 * bitOf mis) 0) else none

/-! ## Reading the tile store (R127, R129) -/

/-- A byte of the tile store as the tile's readers see it: the withheld byte of a segment, or the bank's (R129, R270). -/
def State.storeByte (s : State) (t a : Nat) : Byte :=
  match (s.core (2 * t)).overlay.find? fun e => decide (e.1 = a) with
  | some e => e.2.1
  | none => Memory.read (s.tile t).store a

/-- `n` bytes of the tile store. -/
def State.storeBytes (s : State) (t a : Nat) : Nat → List Byte
  | 0 => []
  | n + 1 => s.storeByte t a :: s.storeBytes t (a + 1) n

def State.storeNat (s : State) (t a n : Nat) : Nat := ofBytes (s.storeBytes t a n)

/-! ## Errors of the memory wafer (R367, R373, R374, R376) -/

/-- The bytes of a word that the correction covers: 8 in the logic wafer's arrays, 16 in a bank (R373). -/
def eccBytes (space : Nat) : Nat := if space = 1 ∨ space = 5 ∨ space = 6 then 8 else 16

/-- The words of `n` bytes at `a`, in a space. -/
def eccWords (space a n : Nat) : List Nat :=
  if n = 0 then []
  else (List.range ((a + n - 1) / eccBytes space - a / eccBytes space + 1)).map fun i => space * 2 ^ 32 + a / eccBytes space + i

def Tile.error (x : Tile) (w : Nat) : Option Bool := Table.get none x.errors w

/-- The 0x18 of a read that consumes an error beyond correction; of the code store and the loop buffer Table 18.1 gives no code for
TINFO1, which is then free (log entry 3). -/
def State.eccCause (s : State) (t space a n : Nat) : Option TrapInfo :=
  if (s.tile t).errors.isEmpty then none
  else ((eccWords space a n).find? fun w => decide ((s.tile t).error w = some false)).map fun w =>
    trapInfo 0x18 (fld w 0 32 * eccBytes space) (if space < 4 then space else fld (Config.freeBits s.free).toNat 0 2) 0

/-- A bank and row of a tile's memory by its space and 16-byte word: bank × 256 + row (R243, R372, R373). -/
def rowOf (w : Nat) : Nat :=
  let space := w / 2 ^ 32
  let a := w % 2 ^ 32 * 16
  let place : Nat × Nat := if space = 2 then
      let n := a % 49152 / 64
      (n % 24, (64 * (32 * (a / 49152) + n / 24)) / 256)
    else (a / 65536, a % 65536 / 256)
  space * 2 ^ 20 + place.1 * 256 + place.2

/-- One hour of ticks (R376). -/
def hourTicks : Nat := 4320000000000

/-- An error event of a tile: its tick is kept with the two before it, and the third within an hour marks the tile; `row` is the row
that the event queued, whose test the mark waits for. A mark that waits for a row does so no longer once a logic-wafer correction has
marked the tile as well (R376). -/
def State.errorEvent (s : State) (t : Nat) (row : Option Nat) : State :=
  let now := s.tick.toNat
  let ticks := ((s.tile t).eccTicks ++ [now]).drop ((s.tile t).eccTicks.length - 2)
  let mark := decide (ticks.length = 3) && decide (now - ticks.headD 0 ≤ hourTicks)
  s.onTile t fun x => { x with eccTicks := ticks, marked := match x.marked with
      | none => if mark then some (0, row) else none
      | some (n, r) => if mark ∧ row.isNone then some (n, none) else some (n, r) }

/-- A read corrects the correctable words it meets: each adds 1 to ECCCNT and is written back; the row of a bank is queued for test
once, and a row that is queued, or a correction in a logic-wafer array, is an error event (R373-R376). -/
def State.eccRead (s : State) (t space a n : Nat) : State :=
  if (s.tile t).errors.isEmpty then s
  else
    let s1 := ((eccWords space a n).filter fun w => decide ((s.tile t).error w = some true)).foldl (fun z w =>
      let row := rowOf w
      let z1 := z.onTile t fun x => { x with ecc := (x.ecc + 1) % 2 ^ 32, errors := Table.drop x.errors w }
      if eccBytes space = 8 then z1.errorEvent t none
      else if (z1.tile t).testRows.contains row then z1
      else (z1.onTile t fun x => { x with testRows := x.testRows ++ [row] }).errorEvent t (some row)) s
    s1.testOutside t

/-- The core has stopped: its engines start no new work (R354). -/
def State.halted (s : State) (c : Nat) : Bool := decide ((s.core c).status = .stopped) || decide ((s.core c).status = .idle)

/-- Core `c`'s engines read some ranges of a space: they correct what they meet, and an error beyond correction stops the tile with 0x18
(R367, R373). -/
def State.eccUse (s : State) (c t space : Nat) (rs : List (Nat × Nat)) : State :=
  if (s.tile t).errors.isEmpty then s
  else
    match rs.findSome? fun r => s.eccCause t space r.1 r.2 with
    | some info => if s.halted c then s else s.takeTrap c (s.core c).pc info
    | none => rs.foldl (fun z r => z.eccRead t space r.1 r.2) s

/-- Engine bytes written into a tile's bank: a withheld byte written before them gives way (R268, R270). -/
def State.bankWrite (s : State) (t : Nat) (bs : List (Nat × Byte)) : State :=
  let s1 := s.onTile t fun x => { x with store := Memory.writeAll x.store bs }
  if (s1.core (2 * t)).overlay.isEmpty then s1
  else s1.onCore (2 * t) fun x => { x with overlay := x.overlay.filter fun e => !(bs.any fun b => decide (b.1 = e.1)) }

/-- The place of the visible bank among the accumulator bytes of both banks. -/
def Tile.visibleAt (x : Tile) : Nat := if x.array.vis then 0x40000 else 0

/-- The accumulator bank that is visible: bank 1 when VIS is set (R244). -/
def Tile.visible (x : Tile) : Memory := if x.array.vis then x.acc1 else x.acc0
def Tile.bank (x : Tile) (bank0 : Bool) : Memory := if bank0 then x.acc0 else x.acc1
def Tile.setBank (x : Tile) (bank0 : Bool) (m : Memory) : Tile := if bank0 then { x with acc0 := m } else { x with acc1 := m }
def Tile.setVisible (x : Tile) (m : Memory) : Tile := if x.array.vis then { x with acc1 := m } else { x with acc0 := m }

end Sys2Proof.Machine
end

