-- ==== Sys2Proof/Machine/Flags.lean ====
section
/-! DEFINITION. The conditions of compares, the effective rounding mode and random words of an instruction, and the flags
and NaN reports that vector results leave (R77, R82, R83, R92, R138, R139). -/

namespace Sys2Proof.Machine

/-- The conditions of CMP and CMPI (Table 4.3). -/
inductive Cond where
  | eq | ne | lt | le | ltn | len
  deriving DecidableEq, Repr

def Cond.holds (c : Cond) (a b : Word) : Bool :=
  match c with
  | .eq => a == b
  | .ne => a != b
  | .lt => a.slt b
  | .le => a.sle b
  | .ltn => a.ult b
  | .len => a.ule b

/-- FMODE.DRM (Table 1.8). -/
def Regs.drm (r : Regs) : RMode :=
  match fld r.fmode.toNat 0 3 with
  | 0 => .rne | 1 => .rz | 2 => .rd | 3 => .ru | _ => .rs

/-- The effective rounding mode (R138). -/
def State.rmode (s : State) (r : RMode) : RMode :=
  match r with
  | .dyn => s.me.regs.drm
  | m => m

/-- The key of a core's random words (R76). -/
def State.rndKey (s : State) : RndKey :=
  let c := s.me
  let p := s.partOf s.latch.core
  let seed := c.regs.seed.toNat
  { k0 := fld seed 0 32 ^^^ (p.ly s.here * 65536 + p.lx s.here) % 2 ^ 32,
    k1 := fld seed 32 32 ^^^ ((if p.hdr.gcount = 0 then 0 else p.hdr.grank) * 2 + c.coreNo) % 2 ^ 32 }

/-- The counter value that the next consumer of this bundle takes (R77). -/
def State.rndCtr (s : State) : Nat := (s.me.regs.rngctr.toNat + s.latch.draws) % 2 ^ 64

/-- The random words of elements 0 to n - 1 of the running instruction. -/
def State.rands (s : State) (n : Nat) : List Nat := (List.range n).map (rand16 s.rndKey s.rndCtr)

/-- Random words when the mode is RS, else zeros: `n` of them. -/
def State.randsFor (s : State) (rm : RMode) (n : Nat) : List Nat :=
  if rm = .rs then s.rands n else List.replicate n 0

/-- A consumer has taken its counter value (R77). -/
def State.drawn (s : State) : State := { s with latch := { s.latch with draws := s.latch.draws + 1 } }

/-- An instruction whose effective mode is RS consumes a counter value. -/
def State.drawnFor (s : State) (rm : RMode) : State := if rm = .rs then s.drawn else s

/-- A pattern is a NaN of the float format. -/
def isNanPattern (f : Fmt) (b : Nat) : Bool := (decodeF f b).isNan

/-- The bit set of the NaN lanes. -/
def nanLanes (f : Fmt) (ls : List Nat) : Nat :=
  fromLanes 1 (ls.map fun b => bitOf (isNanPattern f b))

/-- The NaN report of a producing form (R139): pending from issue + L, unless VNANTRAP is 0 or in handler mode. The form delivers its
NaN also where its write loses under R23 (log entry 43). -/
def State.reportNan (s : State) (lat : Nat) (d : BitVec 10) (nans : Nat) : State :=
  if nans = 0 ∨ !s.me.regs.fmode.getLsbD 9 ∨ s.me.hm then s
  else
    let f := vfileOf s.latch.slot
    let t : TrapInfo :=
      { cause := 0x0E, t0 := s.latch.addr.toNat, t1 := slotNo s.latch.slot + s.me.regs.phys f d.toNat * 2 ^ 16,
        t2 := nans, imp := true }
    s.onCore s.latch.core fun x => { x with pending := x.pending ++ [{ due := s.now + lat, info := t }] }

end Sys2Proof.Machine
end

