-- ==== Sys2Proof/Machine/Code.lean ====
section
/-! DEFINITION. The code store: index-stream entries, runs, the addresses that follow a bundle, and the two halves of the
loop buffer (02 R36-R43, R434). -/

namespace Sys2Proof.Machine

/-- An entry of the index stream (Table 2.1). -/
inductive Entry where
  | bundle (bits : Nat) (len : Nat)
  | marker (reason : Nat)
  | chain (target : CodeAddr)
  /-- The area ends inside the entry (R38). -/
  | ends
  deriving DecidableEq, Repr

/-- What is wrong with a code address (R38): nothing, a 0x02 of reason 7, or a 0x0A of a code fetch with TINFO1. -/
inductive AddrFault where
  | none | bad | fetch (t1 : Nat)
  deriving DecidableEq, Repr

/-- The byte address of a code address in the tile store. -/
def codeByte (a : CodeAddr) : Nat := fld a.toNat 0 24

/-- The halfword position of a code address in the index area. -/
def codePos (a : CodeAddr) : Nat := fld a.toNat 0 16

/-- The code address lies in the tile store (R36). -/
def inStore (a : CodeAddr) : Bool := a.getLsbD 31

/-- A position lies in the core's share of the index area (R37, Table 1.1). -/
def Core.sharePos (c : Core) (pos : Nat) : Bool :=
  !c.split || (if c.coreNo = 0 then decide (pos < 0x8000) else decide (0x8000 ≤ pos))

/-- The fault of a code address (R38). -/
def Core.addrFault (c : Core) (a : CodeAddr) : AddrFault :=
  if inStore a then
    if fld a.toNat 24 7 ≠ 0 ∨ codeByte a % 2 = 1 ∨ 0x600000 ≤ codeByte a then .bad
    else
      match regionOf c.regions (codeByte a) with
      | none => .fetch 2
      | some r => if r.kind = 4 then .none else .fetch 3
  else if fld a.toNat 16 15 ≠ 0 ∨ !c.sharePos (codePos a) then .bad
  else .none

/-- A halfword of the stream, `i` halfwords past `a`; none past the end of the area. -/
def State.half (s : State) (c : Nat) (a : CodeAddr) (i : Nat) : Option Nat :=
  let x := s.core c
  let t := s.tile (tileOf c)
  if inStore a then
    let b := codeByte a + 2 * i
    match regionOf x.regions (codeByte a) with
    | none => none
    | some r => if r.kind = 4 ∧ r.holds (b + 1) then some (s.storeNat (tileOf c) b 2) else none
  else
    let p := codePos a + i
    if p < 0x10000 ∧ x.sharePos p then some (Table.get t.indexRest t.index p) else none

/-- Halfwords put together, or none where the area ends. -/
def State.halves (s : State) (c : Nat) (a : CodeAddr) (i : Nat) : Nat → Option Nat
  | 0 => some 0
  | n + 1 =>
    match s.half c a i, s.halves c a (i + 1) n with
    | some h, some r => some (h + 65536 * r)
    | _, _ => none

/-- The entry at a code address that has no fault (R37). -/
def State.entry (s : State) (c : Nat) (a : CodeAddr) : Entry :=
  let x := s.core c
  match s.half c a 0 with
  | none => .ends
  | some h =>
    if h < 0x2000 then
      if x.split ∧ 0x1000 ≤ h then .marker 6
      else .bundle (Table.get 0 (s.tile (tileOf c)).dict (if x.split ∧ x.coreNo = 1 then h + 0x1000 else h)) 1
    else if h < 0xFFFE then .marker 4
    else if h = 0xFFFE then
      match s.halves c a 1 2 with
      | none => .ends
      | some t => .chain (BitVec.ofNat 32 t)
    else
      match s.halves c a 1 24 with
      | none => .ends
      | some b => .bundle b 25

/-- The code address `n` halfwords on. -/
def codeAdd (a : CodeAddr) (n : Nat) : CodeAddr := if inStore a then a + BitVec.ofNat 32 (2 * n) else a + BitVec.ofNat 32 n

/-- The address that follows a bundle in the code stream, chains followed; the flag says that the area ends there. -/
def State.nextAddr (s : State) (c : Nat) (a : CodeAddr) : CodeAddr × Bool :=
  let len := match s.entry c a with
    | .bundle _ n => n
    | _ => 1
  let b := codeAdd a len
  match s.half c a len with
  | none => (b, true)
  | some _ =>
    match s.entry c b with
    | .chain t => (t, false)
    | .ends => (b, true)
    | _ => (b, false)

/-- How a run ends: with a chain entry, at its 128th bundle, or with the area. -/
inductive RunEnd where
  | chain (t : CodeAddr) | long | area
  deriving DecidableEq, Repr

/-- The bundles of a run from `a`, at most `n` of them, and how it ends (R39). -/
def State.run (s : State) (c : Nat) (a : CodeAddr) : Nat → List CodeAddr × RunEnd
  | 0 => ([], match s.entry c a with
      | .chain t => .chain t
      | .ends => .area
      | _ => .long)
  | n + 1 =>
    match s.entry c a with
    | .chain t => ([], .chain t)
    | .ends => ([], .area)
    | e =>
      let len := match e with
        | .bundle _ l => l
        | _ => 1
      match s.half c a len with
      | none => ([a], .area)
      | some _ =>
        let r := s.run c (codeAdd a len) n
        (a :: r.1, r.2)

/-- The bundles of the run expanded in a half. -/
def State.halfRun (s : State) (c : Nat) (h : Half) : List CodeAddr × RunEnd := s.run c h.start 128

/-- Where a bundle stands in a half, if it is expanded there (R41). -/
def State.inHalf (s : State) (c : Nat) (h : Option Half) (a : CodeAddr) : Option Nat :=
  match h with
  | none => none
  | some x => if (s.core c).addrFault x.start = .none then (s.halfRun c x).1.idxOf? a else none

/-- The executing half. -/
def Core.mine (c : Core) : Option Half := if c.half then c.half1 else c.half0

/-- The bundle is resident in one of the halves (R41). -/
def State.resident (s : State) (c : Nat) (a : CodeAddr) : Bool :=
  let x := s.core c
  (s.inHalf c x.mine a).isSome || (s.inHalf c x.other a).isSome

/-- Cycles from the start of an expansion to its first bundle (R40). -/
def expandDelay (a : CodeAddr) : Nat := if inStore a then 8 else 4

/-- What the expansion of one bundle reads of the code store: its halfwords, and its dictionary entry (R36, R238). -/
def State.codeRanges (s : State) (c : Nat) (a : CodeAddr) : List (Nat × Nat) :=
  let x := s.core c
  let dict := match s.half c a 0 with
    | some h => if h < 0x2000 then [(48 * (if x.split ∧ x.coreNo = 1 then h + 0x1000 else h), 48)] else []
    | none => []
  let len := match s.entry c a with
    | .bundle _ n => n
    | _ => 1
  if inStore a then dict else (0x60000 + 2 * codePos a, 2 * len) :: dict

/-- The errors that the expansion of a run meets, in the code store and in a code region (R367, R373). -/
def State.eccCode (s : State) (c : Nat) (start : CodeAddr) : State :=
  let t := tileOf c
  if (s.tile t).errors.isEmpty ∨ (s.core c).addrFault start ≠ .none then s
  else
    let run := (s.run c start 128).1
    let s1 := s.eccUse c t 4 (run.flatMap (s.codeRanges c))
    if inStore start then s1.eccUse c t 0 (run.map fun a => (codeByte a, 50)) else s1

/-- Expand a target that is not resident, into the half that does not hold the bundle issued last, from cycle `since` on
(R41, R434). -/
def State.expandFrom (s : State) (c since : Nat) (a : CodeAddr) : State :=
  if (s.core c).addrFault a ≠ .none ∨ s.resident c a then s
  else (s.onCore c fun x => x.setOther (some { start := a, ready := some (since + expandDelay a) })).eccCode c a

def State.expand (s : State) (c : Nat) (a : CodeAddr) : State := s.expandFrom c s.now a

/-- The launch's expansion of an entry run and of its chain successor (R40). -/
def State.expandEntry (s : State) (c : Nat) (a : CodeAddr) : State :=
  let h0 : Half := { start := a, ready := none }
  let h1 : Option Half := match (s.run c a 128).2 with
    | .chain t => some { start := t, ready := none }
    | _ => none
  s.onCore c fun x => { x with half0 := some h0, half1 := h1, half := false }

/-- The bundle in half `h` is available at the present cycle (R40, R42). -/
def State.available (s : State) (h : Option Half) (k : Nat) : Bool :=
  match h with
  | none => false
  | some x =>
    match x.ready with
    | none => true
    | some r => decide (r + k ≤ s.now)

/-- Issue moves to the other half: the half it left takes the chain successor of the run now executing, unless it holds it
from its first bundle (R40). -/
def State.moveHalf (s : State) (c : Nat) : State :=
  let s1 := s.onCore c fun x => { x with half := !x.half }
  let x := s1.core c
  match x.mine with
  | none => s1
  | some h =>
    match (s1.halfRun c h).2 with
    | .chain t =>
      if (x.other.map fun o => o.start) = some t then s1
      else (s1.onCore c fun y => y.setOther (some { start := t, ready := some (s.now + expandDelay t) })).eccCode c t
    | _ => s1

/-- A relative target (R95): halfwords in the index area, with bit 31 clear, and twice as many bytes in the tile store, with bit 31 set
(DEDUCED, log entry 31: also where the target lies outside its area). -/
def relTarget (a : CodeAddr) (off : BitVec 24) : CodeAddr :=
  if inStore a then (a + off.signExtend 32 + off.signExtend 32) ||| 0x80000000#32 else (a + off.signExtend 32) &&& 0x7FFFFFFF#32

end Sys2Proof.Machine
end

