-- ==== Sys2Proof/Machine/Csr.lean ====
section
/-! DEFINITION. The control and status registers: reading by number, and writing field by field (01 R32, R33, 04 R108). -/

namespace Sys2Proof.Machine

/-- FMODE with a value written into its fields: DRM ignores the codes 101 to 111 (Table 1.8). -/
def fmodeWrite (old v : Word) : Word :=
  let drm := if fld v.toNat 0 3 ≤ 4 then fld v.toNat 0 3 else fld old.toNat 0 3
  BitVec.ofNat 64 (fld v.toNat 8 2 * 2 ^ 8 + drm)

/-- A rotating base under a region of `rot` units (R30). -/
def ringMod (rot n : Nat) : Nat := if rot = 0 then 0 else n % (8 * rot)

/-- ROTSZ with new sizes: each caps at 64, and the bases are reduced (R30). -/
def Regs.setRot (r : Regs) (v w : Nat) : Regs :=
  let v := min v 64
  let w := min w 64
  { r with rotv := v, rotw := w, rrbv := ringMod v r.rrbv, rrbw := ringMod w r.rrbw }

/-- The CSRs that a program writes, by number (Table 1.7). -/
def csrWritable : List Nat :=
  [0x020, 0x021, 0x022, 0x023, 0x024, 0x030, 0x031, 0x032, 0x033, 0x040, 0x041, 0x042, 0x050, 0x051, 0x052, 0x053,
    0x054, 0x055]

/-- The CSRs of Table 1.7 that are read-only, but for the region table. -/
def csrReadOnly : List Nat :=
  [0x000, 0x001, 0x002, 0x003, 0x004, 0x010, 0x011, 0x012, 0x013, 0x014, 0x015, 0x056, 0x060, 0x061, 0x070, 0x071, 0x080]

/-- Table 1.7 lists the number. -/
def csrListed (n : Nat) : Bool :=
  csrWritable.contains n || csrReadOnly.contains n || (decide (0x100 ≤ n) && decide (n < 0x140))

/-- A word of the region table (Table 1.3). -/
def regionCsr (rs : List Region) (i : Nat) : Nat :=
  match rs[i / 4]? with
  | none => 0
  | some r =>
    match i % 4 with
    | 0 => r.base / 4096 * 4096
    | 1 => r.size
    | 2 => bitOf r.ro * 2 ^ 8 + r.kind * 2 ^ 4 + r.fmt
    | _ => 0

/-- The read-only CSRs of a core. -/
def State.csrRO (s : State) (c n : Nat) : Nat :=
  let x := s.core c
  let t := tileOf c
  let p := s.partOf c
  match n with
  | 0x000 => t
  | 0x001 => s.ptid t
  | 0x002 => x.pos * 2 ^ 8 + x.gsize
  | 0x003 => xOf t % 2 + 2 * (yOf t % 2)
  | 0x004 => p.height * 2 ^ 40 + p.width * 2 ^ 32 + p.oy * 2 ^ 24 + p.ox * 2 ^ 16 + x.part.getD 0
  | 0x010 => x.phase % 2 ^ 32
  | 0x011 => s.scyc c
  | 0x012 => s.tick.toNat
  | 0x013 => s.mapver
  | 0x014 => s.topver
  | 0x015 => s.drift.toNat
  | 0x056 => x.thvec.toNat
  | 0x060 => x.segseq
  | 0x061 => x.whlevel
  | 0x070 => x.coreNo * 2 + bitOf x.split
  | 0x071 => x.sigcnt
  | 0x080 => (s.tile t).ecc
  | _ => regionCsr x.regions (n - 0x100)

/-- A CSR's value at the present cycle (R24, R108). -/
def State.csrRead (s : State) (c n : Nat) : Word :=
  let x := s.core c
  let r := x.regs
  match n with
  | 0x020 => r.fmode
  | 0x021 => r.fflags.setWidth 64
  | 0x022 => r.seed
  | 0x023 => r.rngctr
  | 0x024 => r.blkdelta
  | 0x030 => BitVec.ofNat 64 r.rrbv
  | 0x031 => BitVec.ofNat 64 r.rrbw
  | 0x032 => BitVec.ofNat 64 (r.p.toNat / 2 ^ 8 * 2 ^ 32 + r.rotw * 2 ^ 16 + r.rotv)
  | 0x033 => r.epicnt.setWidth 64
  | 0x040 => BitVec.ofNat 64 (bitOf r.chken)
  | 0x041 => BitVec.ofNat 64 (bitOf r.strict)
  | 0x042 => r.slipmax.setWidth 64
  | 0x050 => r.tcause.setWidth 64
  | 0x051 => r.tinfo0
  | 0x052 => r.tinfo1
  | 0x053 => r.tinfo2
  | 0x054 => r.tpc.setWidth 64
  | 0x055 => BitVec.ofNat 64 (bitOf x.hm * 2 + bitOf r.imp)
  | _ => BitVec.ofNat 64 (s.csrRO c n)

/-- A CSR write, field by field; read-only CSRs and fields keep their values (R32, R108). -/
def Regs.csrWrite (r : Regs) (n : Nat) (v : Word) : Regs :=
  match n with
  | 0x020 => { r with fmode := fmodeWrite r.fmode v }
  | 0x021 => { r with fflags := v.setWidth 5 }
  | 0x022 => { r with seed := v }
  | 0x023 => { r with rngctr := v }
  | 0x024 => { r with blkdelta := v &&& 0xF0F }
  | 0x030 => { r with rrbv := ringMod r.rotv (fld v.toNat 0 9) }
  | 0x031 => { r with rrbw := ringMod r.rotw (fld v.toNat 0 9) }
  | 0x032 => r.setRot (fld v.toNat 0 7) (fld v.toNat 16 7)
  | 0x033 => { r with epicnt := v.setWidth 16 }
  | 0x040 => { r with chken := v.getLsbD 0 }
  | 0x041 => { r with strict := v.getLsbD 0 }
  | 0x042 => { r with slipmax := v.setWidth 16 }
  | 0x050 => { r with tcause := v.setWidth 8 }
  | 0x051 => { r with tinfo0 := v }
  | 0x052 => { r with tinfo1 := v }
  | 0x053 => { r with tinfo2 := v }
  | 0x054 => { r with tpc := v.setWidth 32 }
  | 0x055 => { r with imp := v.getLsbD 0 }
  | _ => r

/-- The CSRs whose write in a bundle with an acting LE takes the place of the stage advance's updates (R107). -/
def csrRotates (n : Nat) : Bool := [0x030, 0x031, 0x032, 0x033].contains n

/-- Ask for a CSR write at the end of the bundle (R24). -/
def State.csrLater (s : State) (n : Nat) (v : Word) : State :=
  { s with latch := { s.latch with csrs := s.latch.csrs ++ [{ num := n, val := v }] } }

end Sys2Proof.Machine
end

