-- ==== Sys2Proof/Machine/KSlot.lean ====
section
/-! DEFINITION. The K slot: integers, predicates, transfers of control, loops, rotation set-up, CSRs and software traps
(04 R87-R110, R114). -/

namespace Sys2Proof.Machine

/-- A result in a k register after `lat` cycles. -/
def kResult (s : State) (lat : Nat) (d : BitVec 5) (v : Word) : Host.Outcome State Fault Refusal := .next (s.writeK lat d v)

/-- A predicate result (R92). -/
def pResult (s : State) (d : BitVec 4) (b : Bool) : Host.Outcome State Fault Refusal := .next (s.writeP 1 d b)

/-! ## Integer forms (R88-R91) -/

/-- A shift left by a count; 0 from 64 on (Table 4.1). -/
def shlW (a : Word) (n : Nat) : Word := if n < 64 then a <<< n else 0
def shrW (a : Word) (n : Nat) : Word := if n < 64 then a >>> n else 0
def sraW (a : Word) (n : Nat) : Word := a.sshiftRight (min n 63)

/-- The smaller of two words, signed or unsigned. -/
def minS (a b : Word) : Word := if b.slt a then b else a
def maxS (a b : Word) : Word := if a.slt b then b else a
def minU (a b : Word) : Word := if b.ult a then b else a
def maxU (a b : Word) : Word := if a.ult b then b else a

/-- The division forms (R89). -/
def divS (a b : Word) : Word := if b = 0 then BitVec.allOnes 64 else BitVec.ofInt 64 (Int.tdiv a.toInt b.toInt)
def divU (a b : Word) : Word := if b = 0 then BitVec.allOnes 64 else BitVec.ofNat 64 (a.toNat / b.toNat)
def remS (a b : Word) : Word := if b = 0 then a else BitVec.ofInt 64 (a.toInt - b.toInt * Int.tdiv a.toInt b.toInt)
def remU (a b : Word) : Word := if b = 0 then a else BitVec.ofNat 64 (a.toNat % b.toNat)

/-- Bits [127:64] of a product. -/
def mulHigh (a b : Int) : Word := BitVec.ofInt 64 (a * b / (2 ^ 64 : Nat))

/-- Zero bits above the highest one bit among the low `n`; `n` when there is none. -/
def clzFrom (a : Word) : Nat → Nat
  | 0 => 0
  | n + 1 => if a.getLsbD n then 0 else clzFrom a n + 1

/-- Zero bits below the lowest one bit, from bit `i`, over `n` bits. -/
def ctzFrom (a : Word) (i : Nat) : Nat → Nat
  | 0 => 0
  | n + 1 => if a.getLsbD i then 0 else ctzFrom a (i + 1) n + 1

def popCount (a : Word) : Nat → Nat
  | 0 => 0
  | n + 1 => bitOf (a.getLsbD n) + popCount a n

def execAdd (d a b : BitVec 5) (s : State) := kResult s 1 d (s.k a + s.k b)
def execSub (d a b : BitVec 5) (s : State) := kResult s 1 d (s.k a - s.k b)
def execAnd (d a b : BitVec 5) (s : State) := kResult s 1 d (s.k a &&& s.k b)
def execOr (d a b : BitVec 5) (s : State) := kResult s 1 d (s.k a ||| s.k b)
def execXor (d a b : BitVec 5) (s : State) := kResult s 1 d (s.k a ^^^ s.k b)
def execAndn (d a b : BitVec 5) (s : State) := kResult s 1 d (s.k a &&& ~~~ s.k b)
def execShl (d a b : BitVec 5) (s : State) := kResult s 1 d (shlW (s.k a) (s.k b).toNat)
def execShr (d a b : BitVec 5) (s : State) := kResult s 1 d (shrW (s.k a) (s.k b).toNat)
def execSra (d a b : BitVec 5) (s : State) := kResult s 1 d (sraW (s.k a) (s.k b).toNat)
def execMin (d a b : BitVec 5) (s : State) := kResult s 1 d (minS (s.k a) (s.k b))
def execMax (d a b : BitVec 5) (s : State) := kResult s 1 d (maxS (s.k a) (s.k b))
def execMinn (d a b : BitVec 5) (s : State) := kResult s 1 d (minU (s.k a) (s.k b))
def execMaxn (d a b : BitVec 5) (s : State) := kResult s 1 d (maxU (s.k a) (s.k b))
def execMul (d a b : BitVec 5) (s : State) := kResult s 3 d (s.k a * s.k b)
def execMulh (d a b : BitVec 5) (s : State) := kResult s 3 d (mulHigh (s.k a).toInt (s.k b).toInt)
def execMulhn (d a b : BitVec 5) (s : State) := kResult s 3 d (mulHigh ((s.k a).toNat : Int) ((s.k b).toNat : Int))
def execDiv (d a b : BitVec 5) (s : State) := kResult s 20 d (divS (s.k a) (s.k b))
def execDivn (d a b : BitVec 5) (s : State) := kResult s 20 d (divU (s.k a) (s.k b))
def execRem (d a b : BitVec 5) (s : State) := kResult s 20 d (remS (s.k a) (s.k b))
def execRemn (d a b : BitVec 5) (s : State) := kResult s 20 d (remU (s.k a) (s.k b))
def execClz (d a : BitVec 5) (s : State) := kResult s 1 d (BitVec.ofNat 64 (clzFrom (s.k a) 64))
def execCtz (d a : BitVec 5) (s : State) := kResult s 1 d (BitVec.ofNat 64 (ctzFrom (s.k a) 0 64))
def execPopc (d a : BitVec 5) (s : State) := kResult s 1 d (BitVec.ofNat 64 (popCount (s.k a) 64))
def execSel (d a b : BitVec 5) (ps : BitVec 4) (s : State) := kResult s 1 d (if s.p ps then s.k a else s.k b)
def execAddi (d a : BitVec 5) (imm : BitVec 32) (s : State) := kResult s 1 d (s.k a + s.imm32 imm)
def execAndi (d a : BitVec 5) (imm : BitVec 32) (s : State) := kResult s 1 d (s.k a &&& s.imm32 imm)
def execOri (d a : BitVec 5) (imm : BitVec 32) (s : State) := kResult s 1 d (s.k a ||| s.imm32 imm)
def execXori (d a : BitVec 5) (imm : BitVec 32) (s : State) := kResult s 1 d (s.k a ^^^ s.imm32 imm)
def execShli (d a : BitVec 5) (imm : BitVec 32) (s : State) := kResult s 1 d (shlW (s.k a) imm.toNat)
def execShri (d a : BitVec 5) (imm : BitVec 32) (s : State) := kResult s 1 d (shrW (s.k a) imm.toNat)
def execSrai (d a : BitVec 5) (imm : BitVec 32) (s : State) := kResult s 1 d (sraW (s.k a) imm.toNat)
def execMovi (d : BitVec 5) (imm : BitVec 32) (s : State) := kResult s 1 d (s.imm32 imm)
def execMuli (d a : BitVec 5) (imm : BitVec 32) (s : State) := kResult s 3 d (s.k a * s.imm32 imm)

/-! ## Compares and predicates (R92-R94) -/

def execCmpEq (pd : BitVec 4) (a b : BitVec 5) (s : State) := pResult s pd (Cond.holds .eq (s.k a) (s.k b))
def execCmpNe (pd : BitVec 4) (a b : BitVec 5) (s : State) := pResult s pd (Cond.holds .ne (s.k a) (s.k b))
def execCmpLt (pd : BitVec 4) (a b : BitVec 5) (s : State) := pResult s pd (Cond.holds .lt (s.k a) (s.k b))
def execCmpLe (pd : BitVec 4) (a b : BitVec 5) (s : State) := pResult s pd (Cond.holds .le (s.k a) (s.k b))
def execCmpLtn (pd : BitVec 4) (a b : BitVec 5) (s : State) := pResult s pd (Cond.holds .ltn (s.k a) (s.k b))
def execCmpLen (pd : BitVec 4) (a b : BitVec 5) (s : State) := pResult s pd (Cond.holds .len (s.k a) (s.k b))
def execCmpiEq (pd : BitVec 4) (a : BitVec 5) (i : BitVec 24) (s : State) := pResult s pd (Cond.holds .eq (s.k a) (s.imm24 i))
def execCmpiNe (pd : BitVec 4) (a : BitVec 5) (i : BitVec 24) (s : State) := pResult s pd (Cond.holds .ne (s.k a) (s.imm24 i))
def execCmpiLt (pd : BitVec 4) (a : BitVec 5) (i : BitVec 24) (s : State) := pResult s pd (Cond.holds .lt (s.k a) (s.imm24 i))
def execCmpiLe (pd : BitVec 4) (a : BitVec 5) (i : BitVec 24) (s : State) := pResult s pd (Cond.holds .le (s.k a) (s.imm24 i))
def execCmpiLtn (pd : BitVec 4) (a : BitVec 5) (i : BitVec 24) (s : State) :=
  pResult s pd (Cond.holds .ltn (s.k a) (s.imm24 i))
def execCmpiLen (pd : BitVec 4) (a : BitVec 5) (i : BitVec 24) (s : State) :=
  pResult s pd (Cond.holds .len (s.k a) (s.imm24 i))
def execPand (pd pa pb : BitVec 4) (s : State) := pResult s pd (s.p pa && s.p pb)
def execPor (pd pa pb : BitVec 4) (s : State) := pResult s pd (s.p pa || s.p pb)
def execPxor (pd pa pb : BitVec 4) (s : State) := pResult s pd (xor (s.p pa) (s.p pb))
def execPandn (pd pa pb : BitVec 4) (s : State) := pResult s pd (s.p pa && !s.p pb)

/-- PSET's writes of p1 to p15 (R94). -/
def psetFrom (s : State) (v : Word) : List Nat → State
  | [] => s
  | n :: r => psetFrom (s.write 1 (.p n) (if v.getLsbD n then 1 else 0)) v r

def execPset (a : BitVec 5) (s : State) : Host.Outcome State Fault Refusal :=
  .next (psetFrom s (s.k a) [1, 2, 3, 4, 5, 6, 7, 8, 9, 10, 11, 12, 13, 14, 15])

/-- The predicates as PGET delivers them: bit 0 is 1 (R94). -/
def Regs.preds (r : Regs) : Word := (r.p ||| 1).setWidth 64

def execPget (d : BitVec 5) (s : State) := kResult s 1 d s.me.regs.preds

/-! ## Transfers of control (R95-R99) -/

/-- A taken transfer to `t`: its shadow is the next bundle (R96). -/
def State.take (s : State) (t : CodeAddr) : State := { s with latch := { s.latch with taken := some t } }

/-- The bundle that executes as the shadow of a transfer in the present bundle (R96, R98). -/
def State.shadowAddr (s : State) : CodeAddr :=
  match s.latch.shadow with
  | some x => x.target
  | none => (s.nextAddr s.latch.core s.latch.addr).1

/-- CALL's link (R96). A member takes the lead's (R169). -/
def State.link (s : State) : Word :=
  match s.latch.follow with
  | some (.run _ _ _ _ l _) => l.setWidth 64
  | _ => ((s.nextAddr s.latch.core s.shadowAddr).1).setWidth 64

def execBr (off : BitVec 24) (s : State) : Host.Outcome State Fault Refusal := .next (s.take (relTarget s.latch.addr off))
def execJmp (a : BitVec 5) (s : State) : Host.Outcome State Fault Refusal := .next (s.take ((s.k a).setWidth 32))
def execCall (off : BitVec 24) (s : State) : Host.Outcome State Fault Refusal :=
  .next ((s.writeK 1 31 s.link).take (relTarget s.latch.addr off))
def execRet (a : BitVec 5) (s : State) : Host.Outcome State Fault Refusal := .next (s.take ((s.k a).setWidth 32))

/-! ## Loops (R100-R105) -/

/-- The 0x08 of a loop form: its code and the stack depth at issue (R105). -/
def State.loopTrap (s : State) (code : Nat) : TrapInfo := trapInfo 0x08 code s.me.regs.loops.length 0

/-- LOOP and LOOPI: in a shadow they trap, a zero count jumps to the exit, else a level is pushed (R100-R102). -/
def State.loopCause (s : State) (count : BitVec 32) : Option TrapInfo :=
  if s.latch.shadow.isSome then some (s.loopTrap 3)
  else if count ≠ 0 ∧ 6 ≤ s.me.regs.loops.length then some (s.loopTrap 0)
  else none

def State.loopForm (s : State) (count : BitVec 32) (off : BitVec 24) : State :=
  if count = 0 then { s with latch := { s.latch with jump := some (relTarget s.latch.addr off) } }
  else
    let start := (s.nextAddr s.latch.core s.latch.addr).1
    { s with latch := { s.latch with loops := .push { start := start, count := count, index := 0 } } }

def execLoop (a : BitVec 5) (off : BitVec 24) (s : State) : Host.Outcome State Fault Refusal :=
  s.attempt (s.loopCause ((s.k a).setWidth 32)) fun s => s.loopForm ((s.k a).setWidth 32) off

def execLoopi (off : BitVec 24) (n : BitVec 18) (s : State) : Host.Outcome State Fault Refusal :=
  s.attempt (s.loopCause (s.imm18 n)) fun s => s.loopForm (s.imm18 n) off

def State.lexitCause (s : State) : Option TrapInfo := if s.me.regs.loops.isEmpty then some (s.loopTrap 1) else none

def execLexit (off : BitVec 24) (s : State) : Host.Outcome State Fault Refusal :=
  s.attempt s.lexitCause fun s =>
    let s1 := s.take (relTarget s.latch.addr off)
    { s1 with latch := { s1.latch with loops := .pop } }

def State.lidxCause (s : State) (lvl : BitVec 4) : Option TrapInfo :=
  if lvl.toNat < s.me.regs.loops.length then none else some (s.loopTrap 2)

def execLidx (d : BitVec 5) (lvl : BitVec 4) (s : State) : Host.Outcome State Fault Refusal :=
  s.attempt (s.lidxCause lvl) fun s =>
    s.writeK 1 d (match s.me.regs.loops[lvl.toNat]? with
      | some l => l.index.setWidth 64
      | none => 0)

/-! ## Rotation set-up and CSRs (R106-R109) -/

def execRotset (imm : BitVec 32) (s : State) : Host.Outcome State Fault Refusal :=
  .next ((((s.csrLater 0x032 (BitVec.ofNat 64 (fld imm.toNat 8 7 * 2 ^ 16 + fld imm.toNat 0 7))).csrLater 0x030 0).csrLater
    0x031 0).csrLater 0x033 (BitVec.ofNat 64 (fld imm.toNat 16 16)))

/-- A CSR number that Table 1.7 does not list (R32). -/
def State.csrCause (s : State) (n : BitVec 12) : Option TrapInfo := if csrListed n.toNat then none else some s.illegal

/-- The source of the write forms (R108). -/
def State.csrSrc (s : State) (a : BitVec 5) (imm : BitVec 16) : Word := s.k a ||| imm.setWidth 64

/-- Deliver the old value and write the new one (R108). -/
def State.csrForm (s : State) (d : BitVec 5) (n : BitVec 12) (new : Word → Word) : State :=
  let old := s.csrRead s.latch.core n.toNat
  (s.writeK 1 d old).csrLater n.toNat (new old)

def execCsrr (d : BitVec 5) (n : BitVec 12) (s : State) : Host.Outcome State Fault Refusal :=
  s.attempt (s.csrCause n) fun s => s.writeK 1 d (s.csrRead s.latch.core n.toNat)
def execCsrw (d a : BitVec 5) (n : BitVec 12) (imm : BitVec 16) (s : State) : Host.Outcome State Fault Refusal :=
  s.attempt (s.csrCause n) fun s => s.csrForm d n fun _ => s.csrSrc a imm
def execCsrs (d a : BitVec 5) (n : BitVec 12) (imm : BitVec 16) (s : State) : Host.Outcome State Fault Refusal :=
  s.attempt (s.csrCause n) fun s => s.csrForm d n fun old => old ||| s.csrSrc a imm
def execCsrc (d a : BitVec 5) (n : BitVec 12) (imm : BitVec 16) (s : State) : Host.Outcome State Fault Refusal :=
  s.attempt (s.csrCause n) fun s => s.csrForm d n fun old => old &&& ~~~ s.csrSrc a imm

/-! ## Software traps and the handler forms (R110, R114, R353, R354) -/

def execTrap (imm : BitVec 32) (s : State) : Host.Outcome State Fault Refusal :=
  .next (s.trapNow (trapInfo 0x28 imm.toNat 0 0))
def execBrk (imm : BitVec 32) (s : State) : Host.Outcome State Fault Refusal :=
  .next (s.trapNow (trapInfo 0x29 imm.toNat 0 0))

/-- TRET and ESC outside handler mode (R114). -/
def State.handlerOnly (s : State) : Option TrapInfo := if s.me.hm then none else some s.illegal

/-- TRET: the return is made at the bundle's end (R353). -/
def execTret (s : State) : Host.Outcome State Fault Refusal :=
  s.attempt s.handlerOnly fun s => { s with latch := { s.latch with tret := some false } }
def execTretSkip (s : State) : Host.Outcome State Fault Refusal :=
  s.attempt s.handlerOnly fun s => { s with latch := { s.latch with tret := some true } }
def execEsc (imm : BitVec 32) (s : State) : Host.Outcome State Fault Refusal :=
  s.attempt s.handlerOnly fun s => s.suppress.escape s.latch.core imm.toNat

end Sys2Proof.Machine
end

