-- ==== Sys2Proof/Machine/MSlot.lean ====
section
/-! DEFINITION. The M slot: address arithmetic, loads and stores, MARK, SPILL and FILL (05 R115-R132). -/

namespace Sys2Proof.Machine

/-! ## Phases, split mode and the withhold buffer -/

/-- The core's phase is an exchange phase (R171). -/
def State.exchange (s : State) : Bool := decide (s.me.phase % 2 = 1)

/-- An M-slot form in an exchange phase (R115). -/
def State.mPhase (s : State) : Option TrapInfo := if s.exchange && !s.me.hm then some s.phaseIllegal else none

/-- The segment of what issues now; 0 outside any segment (R356). -/
def State.segNo (s : State) : Nat := s.me.segOpen.getD 0

/-- The space that a segment's withheld items may fill (R249). -/
def withholdMax : Nat := 262128

/-- The 0x19 of items of `n` bytes in a bundle that has `need` bytes to withhold (R249). -/
def State.holdCause (s : State) (n : Nat) : Option TrapInfo :=
  let all := max n s.latch.need
  if n ≠ 0 ∧ s.segNo ≠ 0 ∧ s.me.whlevel + all > withholdMax then some (trapInfo 0x19 s.me.whlevel all 0) else none

/-- Withhold an item of the open segment. -/
def State.withhold (s : State) (n : Nat) (i : HeldItem) : State :=
  if s.segNo = 0 then s
  else
    let s1 := { s with latch := { s.latch with need := s.latch.need - n } }
    s1.onCore s.latch.core fun x => { x with held := x.held ++ [{ seg := s.segNo, bytes := n, item := i }] }

/-- The first of several causes. -/
def firstCause : List (Option TrapInfo) → Option TrapInfo
  | [] => none
  | some t :: _ => some t
  | none :: r => firstCause r

/-! ## Address arithmetic (R116) -/

/-- An address result. -/
def State.addrForm (s : State) (d : BitVec 5) (v : Word) : Host.Outcome State Fault Refusal :=
  s.attempt s.mPhase fun s => s.writeA 1 d v

def execAadd (d a b : BitVec 5) (s : State) := s.addrForm d (s.a a + s.a b)
def execAsub (d a b : BitVec 5) (s : State) := s.addrForm d (s.a a - s.a b)
def execAaddi (d a : BitVec 5) (imm : BitVec 32) (s : State) := s.addrForm d (s.a a + s.imm32 imm)
def execAshli (d a : BitVec 5) (imm : BitVec 32) (s : State) :=
  s.addrForm d (if imm.toNat < 64 then s.a a <<< imm.toNat else 0)
def execAmuli (d a : BitVec 5) (imm : BitVec 32) (s : State) := s.addrForm d (s.a a * s.imm32 imm)
def execAmovi (d : BitVec 5) (imm : BitVec 32) (s : State) := s.addrForm d (s.imm32 imm)

/-! ## The register of a load or store (R120, R126) -/

/-- The register that FILE and REG name, resolved through the ring. -/
def State.memReg (s : State) (m : MemOp) : RegId :=
  match m.file with
  | .k => .k m.reg.toNat
  | .m => .a m.reg.toNat
  | .v => .v (s.me.regs.phys .v m.reg.toNat)
  | .w => .w (s.me.regs.phys .w m.reg.toNat)

/-- The value of a store's data register. -/
def State.memData (s : State) (m : MemOp) : Vec :=
  match m.file with
  | .k => s.me.regs.get (.k m.reg.toNat)
  | .m => s.me.regs.get (.a m.reg.toNat)
  | .v => s.vec .v m.reg.toNat
  | .w => s.vec .w m.reg.toNat

/-- A load: its value lands after `lat` cycles, and the base is updated (R117). Memory is sampled at issue + 1 (R127),
where it holds exactly what it holds when the bundle issues. -/
def State.load (s : State) (m : MemOp) (lat : Nat) (v : Vec) : State :=
  (s.postUpdate m).fly s.latch.core 1 lat (s.memReg m) v

/-- Bytes performed into the tile store at issue + 4, and withheld while a segment is open (R127, R129, R249). -/
def State.perform (s : State) (bs : List (Nat × Byte)) (hold : Nat) : State :=
  let s1 := s.withhold hold .store
  let s2 := s1.onCore s.latch.core fun x => { x with performs := max x.performs (s.now + 4) }
  s2.post (s.now + 4) rankStore (.storePerform s.latch.core s.segNo bs)

/-! ## Scalar loads and stores (R119) -/

/-- The causes of an access of `n` bytes at the form's effective address, aligned to `n`. -/
def State.accessCause (s : State) (m : MemOp) (w : Access) (n : Nat) : Option TrapInfo :=
  firstCause [s.mPhase, accessFault s.me.regions w (s.ea m).toNat n n]

/-- The withheld bytes among `n` at `a`: an error of the withhold buffer lies at the place of the byte that it holds (log entry 47). -/
def Core.withholds (x : Core) (a n : Nat) : Bool := x.overlay.any fun e => decide (a ≤ e.1) && decide (e.1 < a + n)

/-- The running bundle reads `n` bytes at `a`: errors are corrected, and one beyond correction in the withhold buffer acts as a signature
mismatch of the bundle (R367, R373). -/
def State.readStore (s : State) (a n : Nat) : State :=
  let s1 := s.eccRead s.here 0 a n
  if (s.tile s.here).errors.isEmpty ∨ !s.me.withholds a n then s1
  else if (s.eccCause s.here 5 a n).isSome then s1.post (s.now + 3) rankLand (.signatureMismatch s.latch.core s.latch.addr s.now)
  else s1.eccRead s.here 5 a n

/-- A scalar load of `n` bytes. -/
def State.scalarLoad (s : State) (m : MemOp) (n : Nat) (signed : Bool) : Host.Outcome State Fault Refusal :=
  s.attempt (firstCause [s.accessCause m .load n, s.eccCause s.here 0 (s.ea m).toNat n]) fun s =>
    let s := s.readStore (s.ea m).toNat n
    let v := s.storeNat s.here (s.ea m).toNat n
    s.load m 5 (if signed then ((BitVec.ofNat (8 * n) v).signExtend 64).setWidth 512 else BitVec.ofNat 512 v)

def execLdb (m : MemOp) (s : State) := s.scalarLoad m 1 true
def execLdbn (m : MemOp) (s : State) := s.scalarLoad m 1 false
def execLdh (m : MemOp) (s : State) := s.scalarLoad m 2 true
def execLdhn (m : MemOp) (s : State) := s.scalarLoad m 2 false
def execLdw (m : MemOp) (s : State) := s.scalarLoad m 4 true
def execLdwn (m : MemOp) (s : State) := s.scalarLoad m 4 false
def execLdd (m : MemOp) (s : State) := s.scalarLoad m 8 false

/-- The causes of a store of `n` bytes that is withheld as `hold` bytes; the 0x19 of a full withhold buffer comes last (DESIGN CHOICE,
log entry 42: the list of R134 does not hold it). -/
def State.storeCause (s : State) (m : MemOp) (n hold : Nat) : Option TrapInfo :=
  firstCause [s.accessCause m .store n, s.holdCause hold]

/-- A store of `n` contiguous bytes. -/
def State.plainStore (s : State) (m : MemOp) (n hold : Nat) : Host.Outcome State Fault Refusal :=
  s.attempt (s.storeCause m n hold) fun s =>
    (s.postUpdate m).perform (atAddr (s.ea m).toNat (toBytes (s.memData m).toNat n)) hold

def execStb (m : MemOp) (s : State) := s.plainStore m 1 16
def execSth (m : MemOp) (s : State) := s.plainStore m 2 16
def execStw (m : MemOp) (s : State) := s.plainStore m 4 16
def execStd (m : MemOp) (s : State) := s.plainStore m 8 16
def execStv (m : MemOp) (s : State) := s.plainStore m 64 80

/-! ## Vector loads (R121-R124) -/

/-- The element format of a format code below 11 (Table 2.6). -/
def codeFmt : Nat → Fmt
  | 0 => .f32 | 1 => .bf16 | 2 => .f16 | 3 => .e4m3 | 4 => .e5m2 | 5 => .i32 | 6 => .i16 | 7 => .i8 | 8 => .n32
  | 9 => .n16 | _ => .n8

/-- The block format of codes 11 and 12. -/
def codeBlk (c : Nat) : Blk := if c = 11 then .b4 else .b10

/-- The FMT of the region that holds an address; none outside every region. -/
def State.fmtAt (s : State) (a : Nat) : Option Nat := (regionOf s.me.regions a).map fun r => r.fmt

/-- Bytes that a view reads under a region's FMT; none where Table 5.3 does not list it. -/
def viewBytes (v : View) (fmt : Option Nat) : Option Nat :=
  match v, fmt with
  | .raw, _ => some 64
  | _, none => none
  | .dec, some f => if f ≤ 10 then some (2 * Fmt.width (codeFmt f)) else none
  | _, some f => if f = 11 ∨ f = 12 then some (codeBlk f).bytes else none

def viewAccess : View → Access
  | .raw => .load
  | _ => .decode

/-- A block view. -/
def viewBlock : View → Bool
  | .raw | .dec => false
  | _ => true

/-- The causes of LDV (R121, R122, R134). The 0x09 of a poisoned block puts the effective address in TINFO0 (DESIGN CHOICE, log entry
42: R122 gives its TINFO1 alone). -/
def State.ldvCause (s : State) (m : MemOp) (view : View) : Option TrapInfo :=
  let a := (s.ea m).toNat
  match viewBytes view (s.fmtAt a) with
  | none => firstCause [s.mPhase, accessFault s.me.regions (viewAccess view) a 64 64, some (trapInfo 0x09 a 2 0)]
  | some n =>
    firstCause [s.mPhase, accessFault s.me.regions (viewAccess view) a n n,
      if viewBlock view ∧ poisoned (codeBlk ((s.fmtAt a).getD 0)) (s.storeNat s.here a n) then some (trapInfo 0x09 a 1 0)
      else none]

/-- An element decoded to f32 (Table 5.3). -/
def decodeLane (f : Fmt) (b : Nat) : Nat := (roundF .f32 .rne false 0 (decodeAny f b)).1

/-- The result of a view over the bytes read (Table 5.3). -/
def viewValue (v : View) (fmt bits : Nat) : Vec :=
  let blk := codeBlk fmt
  match v with
  | .raw => BitVec.ofNat 512 bits
  | .dec => vecOf 32 ((lanes bits (Fmt.width (codeFmt fmt)) 16).map (decodeLane (codeFmt fmt)))
  | .bf24 => vecOf 16 ((List.range 24).map (blockLane .bf16 blk bits))
  | .blo => vecOf 32 ((List.range 16).map (blockLane .f32 blk bits))
  | .bhi => vecOf 32 ((List.range 8).map fun i => blockLane .f32 blk bits (16 + i))

def execLdv (m : MemOp) (view : View) (s : State) : Host.Outcome State Fault Refusal :=
  let a := (s.ea m).toNat
  let n := (viewBytes view (s.fmtAt a)).getD 64
  s.attempt (firstCause [s.ldvCause m view, s.eccCause s.here 0 a n]) fun s =>
    let s := s.readStore a n
    s.load m 6 (viewValue view ((s.fmtAt a).getD 0) (s.storeNat s.here a n))

/-- The address of element `j` of a strided form (R123, R125). -/
def State.elemAddr (s : State) (m : MemOp) (stride : BitVec 5) (j : Nat) : Nat :=
  (s.ea m + BitVec.ofNat 64 j * s.a stride).toNat

/-- The fault of an element that must lie in the region `r` of element 0 (R118, R123). -/
def elemFault (rs : List Region) (r : Option Region) (w : Access) (a n : Nat) : Option TrapInfo :=
  let mis := decide (a % n ≠ 0)
  let bad := match r with
    | none => true
    | some r => !r.covers a n || !r.permits w
  if mis || bad then some (trapInfo 0x0A a (bitOf (regionOf rs a).isSome + 4 * bitOf mis) 0) else none

/-- The first faulting element, in element order. -/
def State.stridedFault (s : State) (m : MemOp) (stride : BitVec 5) (w : Access) (n : Nat) : Option TrapInfo :=
  let r := regionOf s.me.regions (s.elemAddr m stride 0)
  (List.range 16).findSome? fun j => elemFault s.me.regions r w (s.elemAddr m stride j) n

/-- The bytes of an element of LDVS: those of its region's format under `dec`, else 4; 4 also under `dec` where element 0 lies in no
region (DESIGN CHOICE, log entry 42). -/
def State.elemBytes (s : State) (m : MemOp) (view : View) : Nat :=
  match view, s.fmtAt (s.ea m).toNat with
  | .dec, some f => if f ≤ 10 then Fmt.width (codeFmt f) / 8 else 4
  | _, _ => 4

def State.ldvsCause (s : State) (m : MemOp) (view : View) (stride : BitVec 5) : Option TrapInfo :=
  firstCause [s.mPhase, s.stridedFault m stride (viewAccess view) (s.elemBytes m view),
    if view = .dec ∧ 10 < (s.fmtAt (s.ea m).toNat).getD 0 then some (trapInfo 0x09 (s.ea m).toNat 2 0) else none]

def execLdvs (m : MemOp) (view : View) (stride : BitVec 5) (s : State) : Host.Outcome State Fault Refusal :=
  let n := s.elemBytes m view
  let ecc := (List.range 16).findSome? fun j => s.eccCause s.here 0 (s.elemAddr m stride j) n
  s.attempt (firstCause [s.ldvsCause m view stride, ecc]) fun s =>
    let s := (List.range 16).foldl (fun z j => z.readStore (s.elemAddr m stride j) n) s
    let f := codeFmt ((s.fmtAt (s.ea m).toNat).getD 0)
    let el (j : Nat) := s.storeNat s.here (s.elemAddr m stride j) (s.elemBytes m view)
    s.load m 6 (vecOf 32 ((List.range 16).map fun j => if view = .dec then decodeLane f (el j) else el j))

/-- The causes of LDACC (R11, R124). -/
def State.ldaccCause (s : State) (m : MemOp) : Option TrapInfo :=
  let a := (s.ea m).toNat
  firstCause [if s.me.split ∧ s.me.coreNo = 1 then some s.illegal else none, s.mPhase,
    if 0x40000 ≤ a ∨ a % 64 ≠ 0 then some (trapInfo 0x0A a (8 + 4 * bitOf (decide (a % 64 ≠ 0))) 0) else none]

/-- LDACC samples the visible bank at issue + 1, before a swap of that cycle (R124). -/
def execLdacc (m : MemOp) (s : State) : Host.Outcome State Fault Refusal :=
  let at_ := (s.tile s.here).visibleAt + (s.ea m).toNat
  s.attempt (firstCause [s.ldaccCause m, s.eccCause s.here 3 at_ 64]) fun s =>
    let s := s.eccRead s.here 3 at_ 64
    s.load m 8 (BitVec.ofNat 512 (Memory.nat (s.tile s.here).visible (s.ea m).toNat 64))

/-! ## Vector stores (R125) -/

def State.stvsCause (s : State) (m : MemOp) (stride : BitVec 5) : Option TrapInfo :=
  firstCause [s.mPhase, s.stridedFault m stride .store 4, s.holdCause 256]

def execStvs (m : MemOp) (stride : BitVec 5) (s : State) : Host.Outcome State Fault Refusal :=
  s.attempt (s.stvsCause m stride) fun s =>
    let v := (s.memData m).toNat
    (s.postUpdate m).perform
      ((List.range 16).flatMap fun j => atAddr (s.elemAddr m stride j) (toBytes (laneOf v 32 j) 4)) 256

/-- The vector file of a FILE field that names one. -/
def File.vfile : File → VFile
  | .w => .w
  | _ => .v

/-- STVM's bytes: those whose mask bit is 1. -/
def maskBytes (mask : Vec) (bs : List (Nat × Byte)) : List (Nat × Byte) :=
  ((List.range 64).zip bs).filterMap fun e => if mask.getLsbD e.1 then some e.2 else none

def execStvm (m : MemOp) (mask : BitVec 5) (s : State) : Host.Outcome State Fault Refusal :=
  s.attempt (s.storeCause m 64 80) fun s =>
    (s.postUpdate m).perform
      (maskBytes (s.vec (File.vfile m.file) mask.toNat) (atAddr (s.ea m).toNat (toBytes (s.memData m).toNat 64))) 80

/-- MARK holds issue until every store issued before its bundle is seen by the next load (R128). -/
def execMark (s : State) : Host.Outcome State Fault Refusal :=
  s.attempt s.mPhase fun s => { s with latch := { s.latch with hold := max s.latch.hold (s.me.performs - s.now - 1) } }

/-! ## SPILL and FILL (R130-R132) -/

/-- The most entries of the spill map. -/
def Core.spillMax (c : Core) : Nat := if c.split then 128 else 256

/-- The other vector file. -/
def VFile.other : VFile → VFile
  | .v => .w
  | .w => .v

/-- The entry of a physical register. -/
def Regs.spillEntry (r : Regs) (f : VFile) (n : Nat) : Option ParkEntry :=
  r.spills.find? fun e => decide (e.file = f ∧ e.reg = n)

/-- The lowest-numbered park register that no entry uses. -/
def Core.freePark (c : Core) (f : VFile) : Option Nat :=
  let set := match VFile.other f with
    | .v => c.parkV
    | .w => c.parkW
  (set.filter fun n => !(c.regs.spills.any fun e => decide (e.file = f ∧ e.place = .reg n))).min?

/-- A region in the order of the bases. -/
def insertRegion (r : Region) : List Region → List Region
  | [] => [r]
  | x :: l => if r.base < x.base then r :: x :: l else x :: insertRegion r l

/-- The lowest free unit of the spill regions. -/
def Core.freeUnit (c : Core) : Option Nat :=
  let rs := (c.regions.filter fun r => decide (r.size ≠ 0 ∧ r.kind = 3)).foldr insertRegion []
  rs.findSome? fun r =>
    ((List.range (min (r.size * 64) (c.spillMax + 1))).map fun i => r.base + 64 * i).find? fun a =>
      !(c.regs.spills.any fun e => decide (e.place = .mem a))

/-- The place that a SPILL of a physical register takes (R131). -/
def Core.spillPlace (c : Core) (f : VFile) (n : Nat) : Option ParkPlace :=
  match c.regs.spillEntry f n with
  | some e => some e.place
  | none =>
    if c.spillMax ≤ c.regs.spills.length then none
    else match c.freePark f with
      | some n => some (.reg n)
      | none => (c.freeUnit).map .mem

/-- What a SPILL withholds (Table 12.2). -/
def ParkPlace.held : Option ParkPlace → Nat
  | some (.mem _) => 80
  | _ => 0

def State.spillCause (s : State) (f : VFile) (reg : BitVec 10) : Option TrapInfo :=
  let place := s.me.spillPlace f (s.me.regs.phys f reg.toNat)
  firstCause [s.mPhase, if place.isNone then some (trapInfo 0x1A 0 0 0) else none, s.holdCause (ParkPlace.held place)]

/-- The value goes to its place at issue + 4; the register keeps it (R131). -/
def execSpill (f : VFile) (reg : BitVec 10) (s : State) : Host.Outcome State Fault Refusal :=
  s.attempt (s.spillCause f reg) fun s =>
    let n := s.me.regs.phys f reg.toNat
    match s.me.spillPlace f n with
    | none => s
    | some place =>
      let s1 := s.onCore s.latch.core fun x =>
        { x with
          performs := max x.performs (s.now + 4),
          regs := { x.regs with
            spills := (x.regs.spills.filter fun e => !decide (e.file = f ∧ e.reg = n)) ++ [{ file := f, reg := n, place := place }] } }
      match place with
      | .reg p => s1.fly s.latch.core 0 4 (vecId (VFile.other f) p) (s.vec f reg.toNat)
      | .mem a => s1.perform (atAddr a (toBytes (s.vec f reg.toNat).toNat 64)) 80

/-- The unit of a spill region that FILL reads. -/
def State.fillUnit (s : State) (f : VFile) (reg : BitVec 10) : Option Nat :=
  (s.me.regs.spillEntry f (s.me.regs.phys f reg.toNat)).bind fun e => match e.place with
    | .reg _ => none
    | .mem a => some a

def State.fillCause (s : State) (f : VFile) (reg : BitVec 10) : Option TrapInfo :=
  firstCause [s.mPhase,
    if (s.me.regs.spillEntry f (s.me.regs.phys f reg.toNat)).isNone then some (trapInfo 0x1A 0 1 0) else none,
    (s.fillUnit f reg).bind fun a => s.eccCause s.here 0 a 64]

/-- FILL's read of a spill region. -/
def State.fillRead (s : State) (f : VFile) (reg : BitVec 10) : State := match s.fillUnit f reg with
  | some a => s.readStore a 64
  | none => s

/-- FILL samples the place and frees its entry (R132). -/
def execFill (f : VFile) (reg : BitVec 10) (s : State) : Host.Outcome State Fault Refusal :=
  s.attempt (s.fillCause f reg) fun s =>
    let s := s.fillRead f reg
    let n := s.me.regs.phys f reg.toNat
    match s.me.regs.spillEntry f n with
    | none => s
    | some e =>
      let v : Vec := match e.place with
        | .reg p => s.me.regs.get (vecId (VFile.other f) p)
        | .mem a => BitVec.ofNat 512 (s.storeNat s.here a 64)
      let s1 := s.onCore s.latch.core fun x =>
        { x with regs := { x.regs with spills := x.regs.spills.filter fun e => !decide (e.file = f ∧ e.reg = n) } }
      s1.fly s.latch.core 1 6 (vecId f n) v

end Sys2Proof.Machine
end

