-- ==== Sys2Proof/Machine/Lock.lean ====
section
/-! DEFINITION. Issue times, waits, phasers and locks: scheduling the next bundle, arriving at a phaser, wait bounds, and
the forms TICK, SCYC, PHASE, LKSTAT, SLEEPT, LOCK, PREG, PDROP, PSIG and PWAIT (08 R175-R188, 10 R228-R232). -/

namespace Sys2Proof.Machine

/-! ## The next bundle (R21, R353) -/

/-- The bundle of 384 bits at a core's next address, where there is one. -/
def State.bundleAt (s : State) (c : Nat) (a : CodeAddr) : Option Nat :=
  if (s.core c).addrFault a = .none then
    match s.entry c a with
    | .bundle b _ => some b
    | _ => none
  else none

/-- The WAIT that core `c`'s next bundle serves: none where its WAIT was served before a trap (R353). -/
def State.nextWait (s : State) (c : Nat) : Nat :=
  let x := s.core c
  if x.served || x.areaEnd then 0
  else match s.bundleAt c x.pc with
    | some b => (decodeHeader (fld b 0 64)).wait.toNat
    | none => 0

/-! ## Waits and their bounds (R181, R182) -/

/-- The details of a 0x0F: the slot, the kind and number of the object, its producer and the bound (R182). -/
def State.boundInfo (s : State) (slot kind obj producer bound : Nat) : TrapInfo :=
  trapInfo 0x0F (slot + kind * 2 ^ 4 + obj % 256 * 2 ^ 8) (producer * 2 ^ 32 + s.ptid producer) (16 * bound)

/-- The latency of the partition's lock, as the arrivals made so far define it (R181, Table 8.4). -/
def Part.latency (p : Part) (round : Bool) : Nat :=
  (if p.hdr.gcount = 0 then 64 else 3200) + (if round then 6144 else 0)

def State.phaser (s : State) (pid ph : Nat) : Phaser := Table.get Phaser.reset (s.part pid).phasers ph
def State.setPhaser (s : State) (pid ph : Nat) (x : Phaser) : State :=
  s.onPart pid fun p => { p with phasers := Table.set Phaser.reset p.phasers ph x }
def Phaser.member (x : Phaser) (c : Nat) : Member := Table.get Member.none x.members c
def Phaser.arrival (x : Phaser) (c : Nat) : Option Arrival := Table.get none x.arrivals c

/-- A member whose arrival is counted (R175). -/
def Member.counted (m : Member) : Bool := m.mode == some .sw || m.mode == some .so

/-- The cores whose arrivals the phaser counts, in ascending order. -/
def Phaser.counted (x : Phaser) : List Nat := (x.members.filter fun e => e.2.counted).map Prod.fst

/-- The latest arrival among those made. -/
def Phaser.latest (x : Phaser) : Nat := x.arrivals.foldl (fun n e => max n ((e.2.map fun a => a.time).getD 0)) 0

/-- Some member that has arrived set ROUND (R176). -/
def Phaser.round (x : Phaser) : Bool := x.arrivals.any fun e => (e.2.map fun a => a.round).getD false

/-- The lead of core `c`'s gang. -/
def State.leadOf (s : State) (c : Nat) : Nat := 2 * (gangTiles (s.core c).gsize (tileOf c)).headD 0 + c % 2

/-- A wait whose end is an event of its own, and needs no polling: that of a LOCK or a PWAIT. -/
def WaitFor.evented : WaitFor → Bool
  | .lock _ _ | .phaser _ _ => true
  | _ => false

/-- When in its cycle a wait's bound traps: where arrivals bear on it, after those of the cycle (R181, R182). -/
def WaitFor.boundRank (w : WaitFor) : Nat := if w.evented then rankBound else rankIssue

/-- Schedule the trap of a wait whose bound is exceeded at cycle `t`; the lead of a gang's member looks POS cycles before (R352). -/
def State.boundAt (s : State) (c t slot : Nat) (w : WaitFor) : State :=
  let s1 := s.post t w.boundRank (.waitBoundExceeded c (s.core c).gen slot)
  if (s.core c).gsize = 0 ∨ (s.core c).pos = 0 then s1
  else s1.post (max s.now (t - (s.core c).pos)) w.boundRank (.bundleIssue (s.leadOf c) (s.core (s.leadOf c)).gen (some .bound))

/-- Wait from the present bundle on, at most 16 × BOUND cycles beyond a minimum (R181, R185). -/
def State.waitFor (s : State) (bound : BitVec 20) (minimum : Nat) (w : WaitFor) : State :=
  let limit := s.now + minimum + 16 * bound.toNat + 1
  let x : Wait := { slot := 4, word := s.latch.word, issued := s.now, limit := some limit, bound := bound.toNat, what := w, again := false }
  ({ s with latch := { s.latch with waits := s.latch.waits ++ [x] } }).boundAt s.latch.core limit 4 w

/-! ## Votes (R180) -/

/-- The partitions whose members share a phaser 0: the group program's parts here, or the partition alone (R175, R205). -/
def State.scopeOf (s : State) (pid : Nat) : List Nat :=
  let h := (s.part pid).hdr
  if h.gcount = 0 then [pid]
  else (s.parts.filter fun e => decide (e.2.hdr.gcount ≠ 0) && decide (e.2.hdr.gtag = h.gtag)).map Prod.fst

/-- Some members of a group phaser are on other modules. -/
def State.remote (s : State) (pid : Nat) : Bool := decide ((s.part pid).here < (s.part pid).hdr.gcount)

/-- The partitions over which phaser `ph` counts. -/
def State.phaserScope (s : State) (pid ph : Nat) : List Nat := if ph = 0 then s.scopeOf pid else [pid]

/-- Some arrival of the partition's lock has set ROUND. -/
def State.scopeRound (s : State) (pid : Nat) : Bool := (s.scopeOf pid).any fun p => (s.phaser p 0).round

/-- The producer of a phaser wait over its partitions: the lowest TID that has not arrived, else the latest arrival (R182). -/
def State.producer (s : State) (pid ph : Nat) : Nat :=
  let xs := (s.phaserScope pid ph).map fun p => s.phaser p ph
  let missing := xs.flatMap fun x => (x.counted.filter fun c => (x.arrival c).isNone).map tileOf
  let latest := (xs.map Phaser.latest).foldl max 0
  let last := xs.flatMap fun x => (x.counted.filter fun c => decide ((x.arrival c).map (fun a => a.time) = some latest)).map tileOf
  (missing.min?.orElse fun _ => last.min?).getD 0

/-- The code of a cast mode (Table 8.5); none where the member casts no vote. -/
def Vote.mode : Vote → Option Nat
  | .none => some 0
  | .and _ => some 1
  | .or _ => some 2
  | .noVote => Option.none

def Vote.pred : Vote → Bool
  | .and p | .or p => p
  | _ => false

/-- RESULT, VALID and MODE of the votes cast (R180, Table 8.5); `far` are those of other modules' members (mode, AND, OR). -/
def voteBits (vs : List Vote) (far : List (Nat × Bool × Bool)) : Nat :=
  let modes := vs.filterMap Vote.mode ++ far.map Prod.fst
  let voters := vs.filter fun v => v.mode.isSome
  match modes with
  | [] => 0
  | m :: _ =>
    if m = 3 ∨ modes.any fun n => decide (n ≠ m) then 3 * 4
    else if m = 0 then 0
    else
      let r := if m = 1 then voters.all Vote.pred && far.all fun f => f.2.1 else voters.any Vote.pred || far.any fun f => f.2.2
      m * 4 + 2 + bitOf r

/-! ## Maintenance of a release (R177, R374, R388) -/

/-- k of a tile: the most rows queued in one bank. -/
def Tile.rowsQueued (x : Tile) : Nat :=
  let banks := x.testRows.map (· / 256)
  banks.foldl (fun n b => max n (banks.count b)) 0

/-- The cycles of maintenance that a lock's release carries: the rows queued now are those it tests. -/
def State.maintenance (s : State) (pids : List Nat) : Nat :=
  let ts := pids.flatMap fun p => (s.part p).tiles
  2400 * ts.foldl (fun n t => max n (s.tile t).rowsQueued) 0 + (if ts.any fun t => (s.tile t).pairTest || (s.tile t).pairDue then 120000 else 0)

/-! ## Arriving (R176, R228) -/

/-- Every counted member has arrived, and no release is due yet. -/
def Phaser.complete (x : Phaser) : Bool :=
  x.release.isNone && !x.counted.isEmpty && x.counted.all fun c => (x.arrival c).isSome

/-- The release of the lock: of one partition, or of all the parts of a group program at once (R175-R177, R180). -/
def State.releaseLock (s : State) (pids : List Nat) (lead : Nat) : State :=
  let phs := pids.map fun p => s.phaser p 0
  let p := s.part lead
  let far := s.remote lead
  let v := Config.groupVote s.free
  let round := (phs.any Phaser.round) || (far && decide (fld v 0 1 = 1))
  let arrivals := phs.flatMap fun x => x.arrivals.filterMap Prod.snd
  let win := (arrivals.any fun a => a.win) || (far && decide (fld v 1 1 = 1))
  let voted := voteBits ((arrivals.filter fun a => !a.ended).map fun a => a.vote)
    (if far then [(fld v 2 2, decide (fld v 4 1 = 1), decide (fld v 5 1 = 1))] else [])
  let latest := (phs.map Phaser.latest).foldl max (if far then Config.groupArrival s.free else 0)
  let extra := max (s.maintenance pids) (if far then Config.groupMaintenance s.free else 0)
  let t := latest + p.latency round + extra
  let s1 := if far then s.draw else s
  let s2 := pids.foldl (fun z pid =>
    let z1 := z.setPhaser pid 0 { z.phaser pid 0 with release := some t }
    let z2 := z1.onPart pid fun q => { q with
      lk := bitOf round * 2 ^ 5 + voted, winNext := q.winNext || win, farLast := if far then Config.groupArrival s.free else 0 }
    let z3 := z2.post t rankRelease (.lockRelease pid 0 none)
    if round then z3.post (latest + 6144) rankAfter (.roundCopy pid) else z3) s1
  (pids.flatMap fun q => (s.part q).tiles).foldl (fun z t => z.onTile t fun x =>
    { x with testing := x.testRows.length, pairTest := false, pairDue := x.pairTest || x.pairDue }) s2

/-- The phaser's release, once every counted member has arrived: at the latest arrival plus the latency and the maintenance
that the release carries (R176, R177, R228); no lock is released while a rerun of its phase is under way (R364). -/
def State.checkRelease (s : State) (pid ph : Nat) : State :=
  let x := s.phaser pid ph
  if !x.complete then s
  else if ph = 0 then
    let pids := s.scopeOf pid
    if (pids.all fun p => (s.phaser p 0).complete) && pids.all fun p => (s.part p).rerun.isNone then s.releaseLock pids pid else s
  else
    let t := x.latest + 64
    (s.setPhaser pid ph { x with release := some t }).post t rankRelease (.phaserRelease pid ph none)

/-- Core `c` arrives at phaser `ph` now: its arrival time is its cycle less its POS (R176). -/
def State.arrive (s : State) (c ph : Nat) (a : Arrival) : State :=
  match (s.core c).part with
  | none => s
  | some pid =>
    let x := s.phaser pid ph
    let m := x.member c
    let first := (s.phaserScope pid ph).all fun p => (s.phaser p ph).arrivals.isEmpty
    let a := { a with time := s.now - (s.core c).pos }
    let x1 := { x with
      members := Table.set Member.none x.members c { m with arr := m.seen + 1 },
      arrivals := Table.set none x.arrivals c (some a) }
    let s1 := s.setPhaser pid ph x1
    let s2 := if ph = 0 ∧ first then
        (s.scopeOf pid).foldl (fun z p =>
          if (s.part p).hdr.strag = 0 then z
          else (z.dropEvents fun v => match v.ev with
              | .stragglerEvent q _ => decide (q = p)
              | _ => false).post (a.time + (s.part p).hdr.strag + 16) rankAfter (.stragglerEvent p (s.phaser p 0).epoch)) s1
      else s1
    s2.checkRelease pid ph

/-- The core has arrived in an epoch whose release it has not observed. -/
def Member.waiting (m : Member) : Bool := decide (m.seen < m.arr)

/-! ## TICK, SCYC, PHASE, LKSTAT and SLEEPT (R183, R187, R188) -/

def execTick (d : BitVec 5) (s : State) := kResult s 1 d s.tick
def execScyc (d : BitVec 5) (s : State) := kResult s 1 d (BitVec.ofNat 64 (s.scyc s.latch.core))
def execPhase (d : BitVec 5) (s : State) := kResult s 1 d (BitVec.ofNat 64 (s.me.phase % 2 ^ 32))
def execLkstat (d : BitVec 5) (s : State) := kResult s 1 d s.me.lkstat

/-- The cycles by which a SLEEPT to tick `t` holds issue (R188): until the cycle that has the tick, under the correction that has begun
(R411). -/
def State.sleepHold (s : State) (t : Word) : Nat :=
  if t.toNat ≤ s.tick.toNat + 1 then 0
  else if s.tickOn then ((t.toNat : Int) - s.tickOff - s.adj).toNat - s.now - 1
  else t.toNat - s.tick.toNat - 1

def State.sleepCause (s : State) (t : Word) : Option TrapInfo :=
  if s.tick.toNat + 2 ^ 24 < t.toNat then some (trapInfo 0x0F (8 * 2 ^ 4) t.toNat 0) else none

/-- Hold issue by at least `n` cycles after the present bundle (R21). -/
def State.holdBy (s : State) (n : Nat) : State := { s with latch := { s.latch with hold := max s.latch.hold n } }

/-- SLEEPT: the hold, and the tick that the core waits for, should the count be corrected meanwhile (R186). -/
def execSleept (a : BitVec 5) (s : State) : Host.Outcome State Fault Refusal :=
  s.attempt (s.sleepCause (s.k a)) fun s =>
    let t := s.k a
    (s.onCore s.latch.core fun x => { x with sleepTo := if s.sleepHold t = 0 then none else some t.toNat }).holdBy (s.sleepHold t)

/-! ## LOCK (R179-R181) -/

/-- LOCK: the core's wait for the release, and its arrival, made with the bundle's end unless a PSIG has made it (R231). -/
def State.lockForm (s : State) (v : Vote) (round win : Bool) (bound : BitVec 18) : State :=
  let c := s.latch.core
  match s.me.part with
  | none => s
  | some pid =>
    let m := (s.phaser pid 0).member c
    let came := m.waiting || s.me.arriving.isSome
    let limit := s.now + (s.part pid).latency (round || s.scopeRound pid) + 16 * bound.toNat + 1
    let w : Wait :=
      { slot := 0, word := s.latch.word, issued := s.now, limit := if m.waiting then some limit else none, bound := bound.toNat,
        what := .lock m.seen round, again := false }
    let s1 := { s with latch := { s.latch with waits := s.latch.waits ++ [w] } }
    if came then (if m.waiting then s1.boundAt c limit 0 w.what else s1)
    else
      (s1.onCore c fun x => { x with arriving := some { time := 0, vote := v, round := round, win := win, ended := false } }).post
        s.now rankAfter (.delayedArrival c (s.core c).gen)

def execLock (round win : Bool) (bound : BitVec 18) (s : State) : Host.Outcome State Fault Refusal :=
  .next (s.lockForm .none round win bound)
def execLockAnd (p : BitVec 4) (round win : Bool) (bound : BitVec 18) (s : State) : Host.Outcome State Fault Refusal :=
  .next (s.lockForm (.and (s.p p)) round win bound)
def execLockOr (p : BitVec 4) (round win : Bool) (bound : BitVec 18) (s : State) : Host.Outcome State Fault Refusal :=
  .next (s.lockForm (.or (s.p p)) round win bound)

/-! ## Phaser forms (R229-R232) -/

/-- A phaser that PHMASK leaves unusable (R228). -/
def State.phaserIllegal (s : State) (ph : BitVec 6) : Bool :=
  decide (ph.toNat ≠ 0) && !((s.partOf s.latch.core).hdr.phmask.getLsbD ph.toNat)

def State.phaserCause (s : State) (ph : BitVec 6) : Option TrapInfo := if s.phaserIllegal ph then some s.illegal else none

/-- A phaser form: what it does to the core's registration. -/
def State.phaserForm (s : State) (ph : BitVec 6) (f : State → Nat → Phaser → Member → State) :
    Host.Outcome State Fault Refusal :=
  s.attempt (s.phaserCause ph) fun s =>
    match s.me.part with
    | none => s
    | some pid =>
      let x := s.phaser pid ph.toNat
      f s pid x (x.member s.latch.core)

/-- Change the core's registration. -/
def State.setMember (s : State) (pid ph : Nat) (x : Phaser) (m : Member) : State :=
  s.setPhaser pid ph { x with members := Table.set Member.none x.members s.latch.core m }

/-- A member, or a tile that the release has made one, has yet to observe its phaser's last release: to its own forms that release is
still the next one. -/
def Phaser.skewed (x : Phaser) (c : Nat) : Bool :=
  let m := x.member c
  (m.mode.isSome || m.view.isSome) && decide (m.seen < x.epoch)

/-- PREG (R230): at once when the phaser has no counted member, else from the next release. -/
def State.preg (s : State) (ph : BitVec 6) (mode : PhMode) : Host.Outcome State Fault Refusal :=
  s.phaserForm ph fun s pid x m =>
    if m.view = some mode then s
    else if m.mode.isNone && m.view.isNone && x.counted.isEmpty then
      s.setMember pid ph.toNat x { m with mode := some mode, view := some mode, pending := none, seen := x.epoch, arr := x.epoch }
    else if x.skewed s.latch.core then
      (s.setMember pid ph.toNat x { m with mode := some mode, pending := none }).checkRelease pid ph.toNat
    else s.setMember pid ph.toNat x { m with pending := some (some mode) }

def execPregSw (ph : BitVec 6) (s : State) := s.preg ph .sw
def execPregSo (ph : BitVec 6) (s : State) := s.preg ph .so
def execPregWo (ph : BitVec 6) (s : State) := s.preg ph .wo

/-- An arrival that carries nothing (R180). -/
def Arrival.plain : Arrival := { time := 0, vote := .noVote, round := false, win := false, ended := false }

/-- Core `c` leaves phaser `ph`: at the next release, counting as arrived; at once where that is a release that it has yet to observe
(R230). -/
def State.leavePhaser (s : State) (c pid ph : Nat) : State :=
  let x := s.phaser pid ph
  let m := x.member c
  let put (m : Member) : State := s.setPhaser pid ph { x with members := Table.set Member.none x.members c m }
  if x.skewed c then (put { m with mode := none, pending := none }).checkRelease pid ph
  else if m.counted && !m.waiting then (put { m with pending := some none }).arrive c ph Arrival.plain
  else put { m with pending := some none }

/-- PDROP: it counts as the arrival of a counted member that has not arrived; the tile leaves at the next release. -/
def execPdrop (ph : BitVec 6) (s : State) : Host.Outcome State Fault Refusal :=
  s.phaserForm ph fun s pid _ m => if m.view.isNone then s else s.leavePhaser s.latch.core pid ph.toNat

/-- The member's own forms see it as counted. -/
def Member.signals (m : Member) : Bool := m.view == some .sw || m.view == some .so

/-- PSIG (R231). On ph0 its arrival is delayed as a LOCK's is. -/
def execPsig (ph : BitVec 6) (s : State) : Host.Outcome State Fault Refusal :=
  s.phaserForm ph fun s _ _ m =>
    let c := s.latch.core
    if !m.signals || m.waiting || (ph.toNat = 0 && s.me.arriving.isSome) then s
    else if ph.toNat = 0 then
      (s.onCore c fun x => { x with arriving := some Arrival.plain }).post s.now rankAfter (.delayedArrival c (s.core c).gen)
    else s.arrive c ph.toNat Arrival.plain

/-- The arrival time of a member's present epoch, in its own cycles. -/
def State.arrivedAt (s : State) (x : Phaser) (c : Nat) : Nat :=
  ((x.arrival c).map fun a => a.time + (s.core c).pos).getD 0

/-- PWAIT (R232). -/
def execPwait (ph : BitVec 6) (bound : BitVec 20) (s : State) : Host.Outcome State Fault Refusal :=
  s.phaserForm ph fun s _ x m =>
    let c := s.latch.core
    let delayed := decide (ph.toNat = 0) && s.me.arriving.isSome
    if m.view = some .wo || (m.view = some .sw && (m.waiting || delayed)) then
      let limit := max s.now (s.arrivedAt x c) + 64 + 16 * bound.toNat + 1
      let w : Wait :=
        { slot := 4, word := s.latch.word, issued := s.now, limit := if delayed then none else some limit, bound := bound.toNat,
          what := .phaser ph.toNat m.seen, again := false }
      let s1 := { s with latch := { s.latch with waits := s.latch.waits ++ [w] } }
      if delayed then s1 else s1.boundAt c limit 4 w.what
    else s

end Sys2Proof.Machine
end

