-- ==== Sys2Proof/Machine/Channel.lean ====
section
/-! DEFINITION. Channels and reduction trees: the route table, links and their arbitration, fragments and their
acknowledgements, merges and results, and the forms XMOVI, XADDI, SEND, RECV, SENDR, RECVR and CHST (10 R207-R227). -/

namespace Sys2Proof.Machine

/-! ## The route table (R207-R209) -/

/-- Entry `n` of tile `t`'s route table. -/
def State.route (s : State) (t n : Nat) : Nat := (Table.get (0 : BitVec 128) (s.tile t).routes n).toNat

def routeDest (r : Nat) : Nat := fld r 0 14
def routePeer (r : Nat) : Nat := fld r 16 8
def routeMode (r : Nat) : Nat := fld r 24 3
def routeTree (r : Nat) : Nat := fld r 32 8
def routeWin (r : Nat) : Nat := fld r 40 8
def routeLen (r : Nat) : Nat := fld r 48 16
def routeBase (r : Nat) : Nat := fld r 64 24
def routeRop (r : Nat) : Nat := fld r 88 3
def routeDown (r : Nat) : Bool := decide (fld r 91 1 = 1)
def routeElat (r : Nat) : Nat := fld r 96 24

/-- The neighbour in a direction: 0 east, 1 west, 2 south, 3 north. -/
def neighbour (t dir : Nat) : Nat :=
  match dir with
  | 0 => yOf t * 128 + (xOf t + 1) % 128
  | 1 => yOf t * 128 + (xOf t + 127) % 128
  | 2 => (yOf t + 1) % 80 * 128 + xOf t
  | _ => (yOf t + 79) % 80 * 128 + xOf t

/-- The port of the neighbour at which a hop in a direction arrives. -/
def facing (dir : Nat) : Nat :=
  match dir with
  | 0 => 1 | 1 => 0 | 2 => 3 | _ => 2

/-- A hop's latency: 16 across a zone boundary, else 2 (R166). -/
def hopLatency (t u : Nat) : Nat := if xOf t / 16 = xOf u / 16 ∧ yOf t / 16 = yOf u / 16 then 2 else 16

/-- The hops in one direction until `stop` holds. -/
def leg (dir : Nat) (stop : Nat → Bool) : Nat → Nat → List Hop × Nat
  | 0, t => ([], t)
  | n + 1, t =>
    if stop t then ([], t)
    else
      let u := neighbour t dir
      let r := leg dir stop n u
      ({ tile := t, dir := dir, lat := hopLatency t u } :: r.1, r.2)

/-- A mode-1 path to tile `d` (R209). -/
def pathOf (r t d : Nat) : List Hop :=
  let xd := if fld r 33 1 = 0 then 0 else 1
  let yd := if fld r 34 1 = 0 then 2 else 3
  let xLeg (t : Nat) := leg xd (fun u => decide (xOf u = xOf d)) 128 t
  let yLeg (t : Nat) := leg yd (fun u => decide (yOf u = yOf d)) 80 t
  if fld r 32 1 = 0 then
    let a := xLeg t
    a.1 ++ (yLeg a.2).1
  else
    let a := yLeg t
    a.1 ++ (xLeg a.2).1

def pathLatency (hs : List Hop) : Nat := hs.foldl (fun n h => n + h.lat) 0

/-! ## Counts of a phase (R215, R217) -/

def State.chan (s : State) (t n : Nat) : Chan := Table.get Chan.reset (s.tile t).chans n
def State.onChan (s : State) (t n : Nat) (f : Chan → Chan) : State :=
  s.onTile t fun x => { x with chans := Table.set Chan.reset x.chans n (f (Table.get Chan.reset x.chans n)) }

/-- ARR as a form that issues now sees it: a flit written at cycle t counts from t + 1 (R217). -/
def Chan.arrived (c : Chan) (now : Nat) : Nat := c.arr - (if c.lastAt = now then c.lastN else 0)

/-- A flit has been written; `late` says that its cycle has passed (R217). -/
def Chan.count (c : Chan) (now : Nat) (late : Bool) : Chan :=
  { c with arr := c.arr + 1, lastAt := now, lastN := (if c.lastAt = now then c.lastN else 0) + 1, late := c.late || late }

/-! ## Links (R216) -/

/-- The core that an entry serves (R207). -/
def State.chanCore (s : State) (t n : Nat) : Nat := if (s.core (2 * t)).split ∧ 128 ≤ n then 2 * t + 1 else 2 * t

/-- The order in which flits that contend for a link take it: channel, sending tile, issue, flit. -/
def flitKey (f : Flit) : Nat := ((f.chan * 2 ^ 14 + f.src) * 2 ^ 44 + f.issue) * 2 ^ 20 + f.k

/-- Writes of one cycle are performed so that the lower channel's bytes, then the lower sender's, remain (R234). -/
def writeKey (chan tid : Nat) : Nat := 2 ^ 24 - (chan * 2 ^ 14 + tid)

/-- What arrives at the end of a flit's last link. -/
def State.deliverFlit (s : State) (at_ : Nat) (f : Flit) : State :=
  match f.kind with
  | .fragment => s.postKey at_ rankChannel (writeKey f.chan f.src) (.flitWrite f)
  | .up => s.post at_ rankSample (.treeMerge f.dest f.entry f.k (some (f.port % 8, f.data.getD 0)))
  | .down => s.postKey at_ rankChannel (writeKey (f.addr / 2 ^ 14) (f.addr % 2 ^ 14)) (.treeResultWrite f)

/-- The flit comes to a tile that a move holds, or from or to one that has moved (R379, R380, R392). -/
def State.detoured (s : State) (f : Flit) : Bool :=
  (s.tile f.dest).move == .holding || (s.tile f.dest).move == .moved || (s.tile f.src).move == .moved

/-- The key of an input port. -/
def portKey (t p : Nat) : Nat := t * 8 + p

def State.onWaiting (s : State) (k : Nat) (f : Nat → Nat) : State :=
  { s with waiting := Table.set 0 s.waiting k (f (Table.get 0 s.waiting k)) }

/-- A flit gives back the place that it has in an input port's buffer, from its entry into the port's link on (R216). -/
def State.leavePort (s : State) (t port : Nat) : State := if port % 8 < 4 then s.onWaiting (portKey t (port % 8)) (· - 1) else s

/-- A flit is at the end of its path at cycle `at_`: before the links are arbitrated and before anything is written there. -/
def State.arriveFlit (s : State) (at_ : Nat) (f : Flit) : State :=
  s.postKey at_ rankLand (flitKey f) (.flitLinkEntry { f with hops := [], waits := false, pass := 0 })

/-- The cycle of the last flit in the queue of a moving tile's old router, 0 if none. -/
def State.queueEnd (s : State) (t : Nat) : Nat :=
  s.agenda.foldl (fun n v => match v.ev with
    | .flitLinkEntry g => if g.dest = t ∧ g.hops.isEmpty ∧ 8 ≤ g.port then max n v.at_ else n
    | _ => n) 0

/-- A flit at the end of its path. Near a move the old router holds it until f + 2, one per cycle in order of arrival, or forwards it
in 2 cycles, behind those that it still holds (R379, R380, R392). A child's flit gives up its place in the port's buffer when it comes, and
waits for the other inputs of its merge without a bound (DESIGN CHOICE, log entry 54). -/
def State.lastHop (s : State) (f : Flit) : State :=
  let x := s.tile f.dest
  if s.detoured f ∧ !f.waits then
    let base := (if x.move = .holding then x.moveEnd else s.now) + 2
    let at_ := max base (s.queueEnd f.dest + 1)
    let queued := decide (x.move = .holding) || decide (base < at_)
    s.post at_ rankLand (.flitLinkEntry { f with waits := true, port := if queued then f.port + 8 else f.port })
  else (s.leavePort f.dest f.port).deliverFlit s.now f

/-- The link of a hop. -/
def linkOf (h : Hop) : Nat := h.tile * 4 + h.dir

/-- A flit that goes first in the order of R216 has still to contend for the same link this cycle. -/
def State.rival (s : State) (f : Flit) (link : Nat) : Bool :=
  s.agenda.any fun v => decide (v.at_ = s.now) && (match v.ev with
    | .flitLinkEntry g => g.data.isSome && decide ((g.hops.head?.map linkOf) = some link) && decide (flitKey g < flitKey f)
    | _ => false)

/-- How often a flit that finds its buffer full looks again on the same cycle, for the places that departures free (log entry 46). -/
def passes : Nat := 256

/-- FLIT_LINK_ENTRY: the router's read of the flit's bytes, or the flit's entry into the next link of its path: the link
takes one flit per cycle, and a full input port holds its upstream neighbour back (R212, R213, R216). -/
def execFlitLinkEntry (f : Flit) (s : State) : Host.Outcome State Fault Refusal :=
  .next (match f.data with
    | none =>
      let s := s.eccUse (s.chanCore f.src f.chan) f.src 0 [(f.addr, 128)]
      let g := { f with data := some (BitVec.ofNat 1024 (s.storeNat f.src f.addr 128)) }
      if f.hops.isEmpty then s.arriveFlit (s.now + 3) g else s.postKey (s.now + 3) rankLink (flitKey f) (.flitLinkEntry g)
    | some _ =>
      match f.hops with
      | [] => s.lastHop f
      | h :: rest =>
        let ahead := portKey (neighbour h.tile h.dir) (facing h.dir)
        let full := decide (16 ≤ Table.get 0 s.waiting ahead)
        if Table.get 0 s.links (linkOf h) ≠ s.now + 1 ∧ (full || s.rival f (linkOf h)) ∧ f.pass < passes then
          s.postKey s.now rankLink ((f.pass + 1) * 2 ^ 100 + flitKey f) (.flitLinkEntry { f with waits := true, pass := f.pass + 1 })
        else if Table.get 0 s.links (linkOf h) = s.now + 1 ∨ full then
          s.postKey (s.now + 1) rankLink (flitKey f) (.flitLinkEntry { f with waits := true, pass := 0 })
        else
          let s1 := (s.leavePort h.tile f.port).onWaiting ahead (· + 1)
          let s2 := { s1 with links := Table.set 0 s1.links (linkOf h) (s.now + 1) }
          let g := { f with hops := rest, port := facing h.dir, waits := false, pass := 0 }
          if rest.isEmpty then s2.arriveFlit (s.now + h.lat) g
          else s2.postKey (s.now + h.lat) rankLink (flitKey f) (.flitLinkEntry g))

/-! ## Fragments (R212-R215) -/

/-- FLIT_WRITE: the flit's bytes in the receiver's store, its count, and the acknowledgement of a whole fragment. -/
def execFlitWrite (f : Flit) (s : State) : Host.Outcome State Fault Refusal :=
  let s1 := s.bankWrite f.dest (atAddr f.daddr (toBytes (f.data.getD 0).toNat 128))
  let s2 := s1.onChan f.dest f.entry fun c => c.count s.now (decide (f.sched < s.now))
  let mine (o : Outgoing) := decide (o.chan = f.chan ∧ o.issue = f.issue)
  let left := (((s2.tile f.src).outs.find? mine).map fun o => o.left).getD 0
  let s3 := s2.onTile f.src fun x =>
    { x with
      outs := if left ≤ 1 then x.outs.filter fun o => !mine o else x.outs.map fun o => if mine o then { o with left := left - 1 } else o,
      wroteAt := Table.set 0 x.wroteAt (s.chanCore f.src f.chan % 2) s.now }
  .next (if left = 1 then
      s3.post (s.now + routeElat (s3.route f.src f.chan) + (if s.detoured f then 2 else 0)) rankLand (.fragmentAck f.src f.chan (f.k + 1) f.phase)
    else s3)

/-- FRAGMENT_ACK: discarded after the sender's release of the fragment's phase (R215). -/
def execFragmentAck (tile entry n phase : Nat) (s : State) : Host.Outcome State Fault Refusal :=
  .next (if (s.core (s.chanCore tile entry)).phase = phase then s.onChan tile entry fun c => { c with infl := c.infl - n } else s)

/-- The flits of a fragment, from flit `k` on. -/
def State.postFlits (s : State) (f : Flit) (k : Nat) : Nat → State
  | 0 => s
  | n + 1 =>
    (s.post (f.issue + 1 + k) rankSample
      (.flitLinkEntry { f with k := k, addr := f.addr + 128 * k, daddr := f.daddr + 128 * k, sched := f.sched + k })).postFlits
      f (k + 1) n

/-- A SEND that executes at the present cycle (R212, R213, R224). -/
def State.sendNow (s : State) (c ch src n off : Nat) : State :=
  let t := tileOf c
  let r := s.route t ch
  let d := (s.partOf c).abs (routeDest r)
  let hops := pathOf r t d
  let first := s.now + 4 + pathLatency hops
  let phase := (s.core c).phase
  let f : Flit :=
    { kind := .fragment, src := t, chan := ch, issue := s.now, k := 0, addr := src, data := none, hops := hops, port := 4,
      waits := false, pass := 0, dest := d, entry := routePeer r, daddr := routeBase (s.route d (routePeer r)) + 128 * off,
      phase := phase, mapver := s.mapver, sched := first }
  let due := if (s.core c).windowed then none else some (first + n - 1)
  let s1 := s.onChan t ch fun x => { x with sent := x.sent + n, infl := x.infl + n }
  let s2 := s1.onTile t fun x => { x with outs := x.outs ++ [{ chan := ch, issue := s.now, left := n, due := due }] }
  s2.postFlits f 0 n

/-! ## Trees (R218-R221) -/

/-- The entry of a tree on a tile. -/
def State.treeEntry (s : State) (t id : Nat) : Option Nat :=
  ((s.tile t).routes.find? fun e =>
    (decide (routeMode e.2.toNat = 3) || decide (routeMode e.2.toNat = 4)) && decide (routeTree e.2.toNat = id)).map Prod.fst

/-- The children of a member: direction, tile and entry, in the order N, E, S, W. -/
def State.children (s : State) (p : Part) (t e : Nat) : List (Nat × Nat × Nat) :=
  [3, 0, 2, 1].filterMap fun dir =>
    let u := neighbour t dir
    match s.treeEntry u (routeTree (s.route t e)) with
    | some n =>
      if routeMode (s.route u n) = 3 ∧ p.abs (routeDest (s.route u n)) = t ∧ p.tiles.contains u then some (dir, u, n) else none
    | none => none

/-- The direction of a member's parent. -/
def parentDir (t parent : Nat) : Nat := ([0, 1, 2, 3].find? fun d => decide (neighbour t d = parent)).getD 0

/-- The root of the tree that an entry belongs to, and its entry. -/
def State.treeRoot (s : State) (p : Part) : Nat → Nat → Nat → Nat × Nat
  | 0, t, e => (t, e)
  | n + 1, t, e =>
    if routeMode (s.route t e) = 3 then
      let u := p.abs (routeDest (s.route t e))
      match s.treeEntry u (routeTree (s.route t e)) with
      | some m => s.treeRoot p n u m
      | none => (t, e)
    else (t, e)

/-- The members below and at an entry. -/
def State.treeMembers (s : State) (p : Part) : Nat → Nat → Nat → List (Nat × Nat)
  | 0, t, e => [(t, e)]
  | n + 1, t, e => (t, e) :: (s.children p t e).flatMap fun u => s.treeMembers p n u.2.1 u.2.2

/-- ready(v) of R220; none while some member below has not contributed. -/
def State.treeReady (s : State) (p : Part) : Nat → Nat → Nat → Option Nat
  | 0, _, _ => none
  | n + 1, t, e =>
    match (s.chan t e).contrib with
    | none => none
    | some (cv, _) =>
      ((s.children p t e).foldl (fun acc u =>
        match acc, s.treeReady p n u.2.1 u.2.2 with
        | some m, some r => some (max m (r + routeElat (s.route u.2.1 u.2.2)))
        | _, _ => none) (some (cv + 4))).map (· + 2)

/-- The latency from the root down to a member. -/
def State.treeDepth (s : State) (p : Part) : Nat → Nat → Nat → Nat
  | 0, _, _ => 0
  | n + 1, t, e =>
    if routeMode (s.route t e) = 3 then
      let u := p.abs (routeDest (s.route t e))
      routeElat (s.route t e) + s.treeDepth p n u ((s.treeEntry u (routeTree (s.route t e))).getD 0)
    else 0

/-- Enough levels for any tree. -/
def treeFuel : Nat := 10240

/-- One merge of two flits (R219). -/
def mergeFlit (rop : Nat) (a b : BitVec 1024) : BitVec 1024 :=
  let lanewise (w : Nat) (f : Nat → Nat → Nat) : BitVec 1024 :=
    BitVec.ofNat 1024 (fromLanes w (List.zipWith f (lanes a.toNat w (1024 / w)) (lanes b.toNat w (1024 / w))))
  match rop with
  | 0 => lanewise 32 (addFmt .f32)
  | 1 => lanewise 16 (addFmt .bf16)
  | 2 => lanewise 32 (minFmt .f32 true)
  | 3 => lanewise 32 (minFmt .f32 false)
  | 4 => lanewise 32 (addFmt .i32)
  | _ => a ^^^ b

/-- A lone contribution as a reduction delivers it: its NaNs canonical (R72). -/
def canonFlit (rop : Nat) (a : BitVec 1024) : BitVec 1024 :=
  let lanewise (w : Nat) (f : Fmt) : BitVec 1024 := BitVec.ofNat 1024 (fromLanes w ((lanes a.toNat w (1024 / w)).map (canonFmt f)))
  match rop with
  | 0 | 2 | 3 => lanewise 32 .f32
  | 1 => lanewise 16 .bf16
  | _ => a

/-- The left fold in the order N, E, S, W, local. -/
def foldPorts (rop : Nat) (ins : List (Nat × Nat × BitVec 1024)) : BitVec 1024 :=
  match [3, 0, 2, 1, 4].filterMap fun p => (ins.find? fun i => decide (i.1 = p)).map fun i => i.2.2 with
  | [] => 0
  | [d] => canonFlit rop d
  | d :: ds => ds.foldl (mergeFlit rop) d

/-- The flit that a member sends up, or the root's result, once every input of flit `k` has come. -/
def State.mergeDone (s : State) (p : Part) (t e k : Nat) (ins : List (Nat × Nat × BitVec 1024)) : State :=
  let r := s.route t e
  let out := ins.foldl (fun n i => max n i.2.1) 0 + 2
  let data := some (foldPorts (routeRop r) ins)
  let phase := (s.core (s.chanCore t e)).phase
  if routeMode r = 4 then
    let f : Flit :=
      { kind := .down, src := t, chan := e, issue := out, k := k, addr := e * 2 ^ 14 + t, data := data, hops := [], port := 4,
        waits := false, pass := 0, dest := t, entry := e, daddr := routeBase r + 128 * k, phase := phase, mapver := s.mapver, sched := 0 }
    s.postKey out rankChannel (writeKey e t) (.treeResultWrite f)
  else
    let u := p.abs (routeDest r)
    let f : Flit :=
      { kind := .up, src := t, chan := e, issue := out, k := k, addr := 0, data := data,
        hops := [{ tile := t, dir := parentDir t u, lat := routeElat r }], port := 4, waits := false, pass := 0,
        dest := u, entry := (s.treeEntry u (routeTree r)).getD 0, daddr := 0, phase := phase, mapver := s.mapver, sched := 0 }
    s.postKey out rankLink (flitKey f) (.flitLinkEntry f)

/-- TREE_MERGE: an input of flit `k` comes to a member: its own contribution, read by the router, or a child's flit.
Inputs wait for the others in Chan.merges, which has no bound (DESIGN CHOICE, log entry 54). -/
def execTreeMerge (tile entry k : Nat) (input : Option (Nat × BitVec 1024)) (s : State) : Host.Outcome State Fault Refusal :=
  let p := s.partOf (s.chanCore tile entry)
  let src := (((s.chan tile entry).contrib).map Prod.snd).getD 0
  let s := if input.isNone then s.eccUse (s.chanCore tile entry) tile 0 [(src + 128 * k, 128)] else s
  let it : Nat × Nat × BitVec 1024 := match input with
    | none => (4, s.now + 3, BitVec.ofNat 1024 (s.storeNat tile (src + 128 * k) 128))
    | some (port, d) => (port, s.now, d)
  let s0 := if input.isNone ∧ k + 1 < routeLen (s.route tile entry) then
      s.post (s.now + 1) rankSample (.treeMerge tile entry (k + 1) none) else s
  let ins := Table.get [] (s0.chan tile entry).merges k ++ [it]
  let full := decide ((s0.children p tile entry).length + 1 ≤ ins.length)
  let s1 := s0.onChan tile entry fun c => { c with merges := Table.set [] c.merges k (if full then [] else ins) }
  .next (if full then s1.mergeDone p tile entry k ins else s1)

/-- A copy of a result flit on its way down to a child. -/
def downFlit (f : Flit) (s : State) (dir u n : Nat) : Flit :=
  { f with
    src := f.dest, chan := f.entry, issue := s.now,
    hops := [{ tile := f.dest, dir := dir, lat := routeElat (s.route u n) }], port := 4, waits := false, dest := u, entry := n,
    daddr := routeBase (s.route u n) + 128 * f.k }

/-- TREE_RESULT_WRITE: the result at the root or, under DOWN, at a member, which sends it on to its children (R218). -/
def execTreeResultWrite (f : Flit) (s : State) : Host.Outcome State Fault Refusal :=
  let p := s.partOf (s.chanCore f.dest f.entry)
  let root := s.treeRoot p treeFuel f.dest f.entry
  let sched := ((s.treeReady p treeFuel root.1 root.2).map fun r => r + f.k + s.treeDepth p treeFuel f.dest f.entry).getD s.now
  let s1 := s.bankWrite f.dest (atAddr f.daddr (toBytes (f.data.getD 0).toNat 128))
  let s2 := s1.onChan f.dest f.entry fun c => c.count s.now (decide (sched < s.now))
  .next (if routeDown (s.route root.1 root.2) then
      (s2.children p f.dest f.entry).foldl (fun z u =>
        let g := downFlit f s2 u.1 u.2.1 u.2.2
        z.postKey s.now rankLink (flitKey g) (.flitLinkEntry g)) s2
    else s2)

/-- Every write of a tree's result has been made: the cycle of the last one (R214). -/
def State.treeWritten (s : State) (p : Part) (t e : Nat) : Option Nat :=
  let root := s.treeRoot p treeFuel t e
  let len := routeLen (s.route root.1 root.2)
  let ms := if routeDown (s.route root.1 root.2) then s.treeMembers p treeFuel root.1 root.2 else [root]
  if ms.all fun m => decide (len ≤ (s.chan m.1 m.2).arr) then
    some (ms.foldl (fun n m => max n (s.chan m.1 m.2).lastAt) 0)
  else none

/-- The tree entries to which a core has contributed in the phase. -/
def State.contributed (s : State) (c : Nat) : List Nat :=
  ((s.tile (tileOf c)).chans.filter fun e => e.2.contrib.isSome && decide (s.chanCore (tileOf c) e.1 = c)).map Prod.fst

/-- The core's fragments and tree results of the phase have all been written: the cycle of the last write, 0 if none. -/
def State.exchanged (s : State) (c : Nat) : Option Nat :=
  let x := s.tile (tileOf c)
  if x.outs.any fun o => decide (s.chanCore (tileOf c) o.chan = c) then none
  else (s.contributed c).foldl (fun acc e =>
    match acc, s.treeWritten (s.partOf c) (tileOf c) e with
    | some a, some b => some (max a b)
    | _, _ => none) (some (Table.get 0 x.wroteAt (c % 2)))

/-! ## Instruction entries (R222-R227) -/

def execXmovi (d : BitVec 4) (imm : BitVec 32) (s : State) : Host.Outcome State Fault Refusal :=
  .next (s.writeX 1 d (s.imm32 imm))
def execXaddi (d a : BitVec 4) (imm : BitVec 32) (s : State) : Host.Outcome State Fault Refusal :=
  .next (s.writeX 1 d (s.x a + s.imm32 imm))

/-- A form that is legal in exchange phases only, or in compute phases only (Table 8.3). -/
def State.exchangeForm (s : State) : Option TrapInfo := if s.exchange then none else some s.phaseIllegal
def State.computeForm (s : State) : Option TrapInfo := if s.exchange then some s.phaseIllegal else none

/-- An entry of the other core of a split tile (R207). -/
def State.otherCore (s : State) (ch : BitVec 8) : Bool :=
  s.me.split && decide (s.chanCore s.here ch.toNat ≠ s.latch.core)

/-- The entry a channel form names. -/
def State.myRoute (s : State) (ch : BitVec 8) : Nat := s.route s.here ch.toNat

/-- SEND, RECV, SENDR, RECVR and CHST on an entry that does not suit them (R16, R223). -/
def State.sendIllegal (s : State) (ch : BitVec 8) : Bool := s.otherCore ch || decide (routeMode (s.myRoute ch) ≠ 1)
def State.recvIllegal (s : State) (ch : BitVec 8) : Bool := s.otherCore ch || decide (routeMode (s.myRoute ch) ≠ 2)
def State.sendrIllegal (s : State) (rop : Nat) (ch : BitVec 8) : Bool :=
  s.otherCore ch || !(decide (routeMode (s.myRoute ch) = 3) || decide (routeMode (s.myRoute ch) = 4)) ||
    decide (routeRop (s.myRoute ch) ≠ rop)
def State.recvrIllegal (s : State) (ch : BitVec 8) : Bool :=
  let r := s.myRoute ch
  let root := s.treeRoot (s.partOf s.latch.core) treeFuel s.here ch.toNat
  s.otherCore ch || !(decide (routeMode r = 4) || (decide (routeMode r = 3) && routeDown (s.route root.1 root.2)))
def State.chstIllegal (s : State) (ch : BitVec 8) : Bool :=
  let m := routeMode (s.myRoute ch)
  s.otherCore ch || !(decide (1 ≤ m) && decide (m ≤ 4))

/-- The flits that a descriptor or requirement names; LEN when its field is 0. -/
def flitsOf (xs : Word) (r : Nat) : Nat := if fld xs.toNat 32 16 = 0 then routeLen r else fld xs.toNat 32 16

/-- A source range of channel flits (R118, R224): 128-byte aligned, in one region of KIND plain, lading or receive. -/
def sourceFault (rs : List Region) (src n : Nat) : Option TrapInfo := accessFault rs .decode src (128 * n) 128

/-- The 0x0A of a count beyond LEN (R224, R226). -/
def lenFault (rs : List Region) (a : Nat) : TrapInfo := trapInfo 0x0A a (16 + bitOf (regionOf rs a).isSome) 0

/-- The flits that a SEND in the present phase would have in flight. -/
def State.infl (s : State) (ch : BitVec 8) : Nat := (s.chan s.here ch.toNat).infl

def State.sendCause (s : State) (ch : BitVec 8) (xs : BitVec 4) : Option TrapInfo :=
  let r := s.myRoute ch
  let v := s.x xs
  let n := flitsOf v r
  let src := fld v.toNat 0 24
  firstCause [if s.sendIllegal ch then some s.illegal else none, s.exchangeForm,
    if routeLen r < fld v.toNat 48 16 + n then some (lenFault s.me.regions src) else none, sourceFault s.me.regions src n,
    if routeWin r < n ∨ (routeWin r < s.infl ch + n ∧ !s.me.windowed) then
      some (trapInfo 0x07 ch.toNat (s.infl ch) n) else none]

def execSend (ch : BitVec 8) (xs : BitVec 4) (bound : BitVec 20) (s : State) : Host.Outcome State Fault Refusal :=
  s.attempt (s.sendCause ch xs) fun s =>
    let r := s.myRoute ch
    let v := s.x xs
    let n := flitsOf v r
    let src := fld v.toNat 0 24
    let off := fld v.toNat 48 16
    if routeWin r < s.infl ch + n then s.waitFor bound 0 (.send ch.toNat src n off)
    else s.sendNow s.latch.core ch.toNat src n off

/-- ARR as the present bundle sees it. -/
def State.arr (s : State) (ch : BitVec 8) : Nat := (s.chan s.here ch.toNat).arrived s.now

/-- The causes of RECV and RECVR (R226). A need above LEN has no effective address: TINFO0 of its 0x0A is the need (DESIGN CHOICE,
log entry 52). -/
def State.needCause (s : State) (bad : Bool) (ch : BitVec 8) (xs : BitVec 4) : Option TrapInfo :=
  let r := s.myRoute ch
  let need := flitsOf (s.x xs) r
  firstCause [if bad then some s.illegal else none, s.exchangeForm,
    if routeLen r < need then some (lenFault s.me.regions need) else none,
    if s.arr ch < need ∧ !s.me.windowed then
      some (trapInfo 0x06 ch.toNat (s.arr ch % 2 ^ 16 + need * 2 ^ 16) (routeDest r)) else none]

def execRecv (ch : BitVec 8) (xs : BitVec 4) (bound : BitVec 20) (s : State) : Host.Outcome State Fault Refusal :=
  s.attempt (s.needCause (s.recvIllegal ch) ch xs) fun s =>
    let need := flitsOf (s.x xs) (s.myRoute ch)
    if s.arr ch < need then s.waitFor bound 0 (.recv ch.toNat need) else s

def execRecvr (ch : BitVec 8) (xs : BitVec 4) (bound : BitVec 20) (s : State) : Host.Outcome State Fault Refusal :=
  s.attempt (s.needCause (s.recvrIllegal ch) ch xs) fun s =>
    let need := flitsOf (s.x xs) (s.myRoute ch)
    if s.arr ch < need then s.waitFor bound 0 (.recvr ch.toNat need) else s

def State.sendrCause (s : State) (rop : Nat) (ch : BitVec 8) (xs : BitVec 4) : Option TrapInfo :=
  let len := routeLen (s.myRoute ch)
  firstCause [if s.sendrIllegal rop ch then some s.illegal else none, s.exchangeForm,
    sourceFault s.me.regions (fld (s.x xs).toNat 0 24) len,
    if (s.chan s.here ch.toNat).contrib.isSome then some (trapInfo 0x07 ch.toNat len len) else none]

/-- SENDR contributes LEN flits; the router reads flit k at issue + 1 + k (R225). -/
def State.sendr (s : State) (rop : Nat) (ch : BitVec 8) (xs : BitVec 4) : Host.Outcome State Fault Refusal :=
  s.attempt (s.sendrCause rop ch xs) fun s =>
    let s1 := s.onChan s.here ch.toNat fun c =>
      { c with sent := c.sent + routeLen (s.myRoute ch), contrib := some (s.now, fld (s.x xs).toNat 0 24) }
    s1.post (s.now + 1) rankSample (.treeMerge s.here ch.toNat 0 none)

def execSendrAddF32 (ch : BitVec 8) (xs : BitVec 4) (_bound : BitVec 20) (s : State) := s.sendr 0 ch xs
def execSendrAddBf16 (ch : BitVec 8) (xs : BitVec 4) (_bound : BitVec 20) (s : State) := s.sendr 1 ch xs
def execSendrMaxF32 (ch : BitVec 8) (xs : BitVec 4) (_bound : BitVec 20) (s : State) := s.sendr 2 ch xs
def execSendrMinF32 (ch : BitVec 8) (xs : BitVec 4) (_bound : BitVec 20) (s : State) := s.sendr 3 ch xs
def execSendrAddI32 (ch : BitVec 8) (xs : BitVec 4) (_bound : BitVec 20) (s : State) := s.sendr 4 ch xs
def execSendrXor (ch : BitVec 8) (xs : BitVec 4) (_bound : BitVec 20) (s : State) := s.sendr 5 ch xs

def State.chstCause (s : State) (ch : BitVec 8) : Option TrapInfo :=
  firstCause [if s.chstIllegal ch then some s.illegal else none, s.exchangeForm]

/-- Table 10.4. -/
def chstValue (c : Chan) (mode now : Nat) : Nat :=
  bitOf c.late * 2 ^ 43 + mode * 2 ^ 40 + (if mode = 1 then c.infl % 2 ^ 8 else 0) * 2 ^ 32 + min c.sent 0xFFFF * 2 ^ 16 +
    c.arrived now % 2 ^ 16

def execChst (ch : BitVec 8) (xs : BitVec 4) (s : State) : Host.Outcome State Fault Refusal :=
  s.attempt (s.chstCause ch) fun s =>
    s.writeX 1 xs (BitVec.ofNat 64 (chstValue (s.chan s.here ch.toNat) (routeMode (s.myRoute ch)) s.now))

/-! ## Waits of the channel forms -/

/-- A waiting SEND executes once its window admits it. -/
def State.pollSend (s : State) (c ch src n off : Nat) : Option State :=
  if (s.chan (tileOf c) ch).infl + n ≤ routeWin (s.route (tileOf c) ch) then some (s.sendNow c ch src n off) else none

/-- A waiting RECV or RECVR has what it needs. -/
def State.arrNow (s : State) (c ch need : Nat) : Bool := decide (need ≤ (s.chan (tileOf c) ch).arrived s.now)

/-- The producer of a waiting RECVR: the lowest TID of the tree without a SENDR in the phase (Table 10.3); where every member
has contributed the spec names none, and the value is free (log entry 3). -/
def State.treeProducer (s : State) (c ch : Nat) : Nat :=
  let p := s.partOf c
  let root := s.treeRoot p treeFuel (tileOf c) ch
  let missing := ((s.treeMembers p treeFuel root.1 root.2).filter fun m => (s.chan m.1 m.2).contrib.isNone).map Prod.fst
  match missing with
  | [] => (Config.freeBits s.free).toNat % 2 ^ 14
  | t :: r => r.foldl min t

end Sys2Proof.Machine
end

