-- ==== Sys2Proof/Machine/Log.lean ====
section
/-! DEFINITION. The start log of a tile and the elision of its forms in a replay or rerun (18 R359, R361, R364), and the
operand-memory slots in the program's view (12 R239-R242). -/

namespace Sys2Proof.Machine

/-! ## Operand-memory slots (R239-R242) -/

def Tile.slot (x : Tile) (n : Nat) : SlotState := Table.get .free x.slots n

def State.setSlot (s : State) (t n : Nat) (v : SlotState) : State :=
  s.onTile t fun x => { x with slots := Table.set .free x.slots n v }

/-- A slot is claimed in the program's view: claimed, and not released by a release that the segment withholds. -/
def Tile.claims (x : Tile) (n : Nat) : Bool := decide (x.slot n = .claimed) && !x.released.contains n

/-- The 0x0B of an access to slot `n` that the program does not hold: its code, 1 also once a released slot is free (R267, R303, R344). -/
def Tile.slotFault (x : Tile) (n : Nat) : Option Nat :=
  if 31 < n then some 2
  else if x.claims n then none
  else if x.slot n = .free ∧ !x.freed.contains n then some 0 else some 1

/-- Slots begin to drain now; each is free once nothing refers to it, `delay` cycles on at the earliest, and on the next cycle where its
last reference ends on this one (R241). -/
def State.startDrain (s : State) (t delay : Nat) (slots : List Nat) : State :=
  slots.foldl (fun z n =>
    let z1 := ((z.setSlot t n .draining).onTile t fun x => { x with released := x.released.filter fun m => decide (m ≠ n) }).post
      (z.now + delay) rankAfter (.slotDrainEnd t n)
    if delay = 0 then z1.post (z.now + 1) rankAfter (.slotDrainEnd t n) else z1) s

/-- Check the draining slots once more on the next cycle: a reference has ended now (R241). -/
def State.recheckSlots (s : State) (t : Nat) : State :=
  ((s.tile t).slots.filter fun e => decide (e.2 = .draining)).foldl
    (fun z e => z.post (z.now + 1) rankAfter (.slotDrainEnd t e.1)) s

/-- The program releases slots: withheld while a segment is open, draining from the next cycle otherwise (R241, R249). -/
def State.releaseSlots (s : State) (slots : List Nat) : State :=
  if slots.isEmpty then s
  else if s.segNo = 0 then s.startDrain s.here 1 slots
  else
    (s.withhold (16 * slots.length) (.release slots)).onTile s.here fun x => { x with released := slots ++ x.released }

/-! ## The start log (R359) -/

/-- The space of the start log. -/
def logMax : Nat := 1024

/-- Forms are logged except in split mode (R359, R371). -/
def State.logs (s : State) : Bool := !s.me.split

/-- The 0x19 of a form for which the start log has no entry left; TINFO1 is what its bundle had to withhold (Table 18.1). -/
def State.logCause (s : State) : Option TrapInfo :=
  if s.logs && decide (logMax ≤ s.me.startLog.length) then some (trapInfo 0x19 s.me.whlevel s.latch.need 1) else none

/-- Record a form that issued at cycle `at_`: its word, its x result, if it has one, and the slots whose release it
withholds. -/
def State.recordAt (s : State) (word at_ : Nat) (xd : Option (Nat × Word)) (slots : List Nat) : State :=
  if s.logs then
    s.onCore s.latch.core fun x =>
      { x with startLog := x.startLog ++ [{ word := word, at_ := at_, seg := s.segNo, xd := xd, slots := slots, held := none }] }
  else s

/-- Record the running form. -/
def State.record (s : State) (xd : Option (Nat × Word)) (slots : List Nat) : State := s.recordAt s.latch.word s.now xd slots

/-- The entry address of the open segment, or of the release that began the phase (R363). -/
def Core.entryAddr (x : Core) : CodeAddr := ((x.snaps.head?.map fun e => e.2.pc).orElse fun _ => x.relSnap.map Snap.pc).getD x.pc

/-- The 0x1C of a form that a replay reaches out of order (R361, Table 18.1). -/
def State.orderTrap (s : State) : TrapInfo := trapInfo 0x1C s.me.sigcnt s.me.mismatchAt.toNat s.me.entryAddr.toNat

/-- The elided form: its recorded result and withheld items, and nothing else (R361). A quay operation that has still no room goes on
waiting for it: its handle is not checked and nothing is counted again (R263). -/
def State.elide (s : State) (e : LogEntry) (rest : List LogEntry) (hold : Nat) : State :=
  match e.held with
  | some (q, k, xd) =>
    (s.onCore s.latch.core fun x => { x with replay := rest }).waitFor (BitVec.ofNat 20 (fld e.word 0 20)) 0 (.quay q k xd)
  | none =>
    let s1 := s.onCore s.latch.core fun x => { x with replay := rest, startLog := x.startLog ++ [{ e with seg := s.segNo }] }
    let s2 := if e.slots.isEmpty ∧ hold ≠ 0 then s1.withhold hold .undo else s1.releaseSlots e.slots
    match e.xd with
    | some (d, v) => s2.write 1 (.x d) (v.setWidth 512)
    | none => s2

/-- The log entry of an operation that a rerun finds held by a wait. -/
def Wait.logged (w : Wait) : Option LogEntry :=
  w.heldTask.map fun h => { word := w.word, at_ := w.issued, seg := 0, xd := none, slots := [], held := some h }

/-- Core `c` stops for a rerun: the operations that it holds stand in its start log, where it reaches them again (R263, R364). -/
def State.keepHeld (s : State) (c : Nat) : State :=
  s.onCore c fun x => { x with
    gen := x.gen + 1, waits := [], savedWaits := [],
    startLog := (x.waits ++ x.savedWaits).foldl (fun l w => match w.logged with
      | some e => (l.filter fun y => decide (y.at_ ≤ e.at_)) ++ e :: l.filter fun y => decide (e.at_ < y.at_)
      | none => l) x.startLog }

/-- A logged form: `illegal` are the causes that its word and phase decide, `cause` those of its operands; `hold` is what it
withholds. In a replay it is elided in order, with `again` beside, and traps out of order (R359, R361). -/
def State.loggedAs (s : State) (illegal cause : Option TrapInfo) (hold : Nat) (again run : State → State) :
    Host.Outcome State Fault Refusal :=
  match illegal, s.me.replay with
  | none, e :: rest =>
    if e.word = s.latch.word then .next (again (s.elide e rest hold)) else .next (s.trapNow s.orderTrap)
  | _, _ => s.attempt (firstCause [illegal, cause, s.holdCause hold, s.logCause]) run

def State.logged (s : State) (illegal cause : Option TrapInfo) (hold : Nat) (run : State → State) :
    Host.Outcome State Fault Refusal := s.loggedAs illegal cause hold id run

end Sys2Proof.Machine
end

