-- ==== Sys2Proof/Machine/Stream.lean ====
section
/-! DEFINITION. Stream engines: descriptors, the checks of SGO and SBIND, the beats of a transfer, windows, and the forms
SCFG, SBIND, SFREE, SWAIT, SGO, OMCLAIM and OMREL (14 R293-R303). -/

namespace Sys2Proof.Machine

/-! ## Descriptors (Table 14.1, R295) -/

def sideKind (w : Word) : Nat := fld w.toNat 61 3
def sideSlot (w : Word) : Nat := fld w.toNat 48 5
def sideAddr (w : Word) : Nat := fld w.toNat 0 24
def dimCount (w : Word) : Nat := fld w.toNat 48 16
def dimStride (w : Word) : Int := sextN (fld w.toNat 0 24) 24

def Desc.field (d : Desc) (n : Nat) : Word :=
  match n with
  | 0 => d.src | 1 => d.dst | 2 => d.d0 | 3 => d.d1 | 4 => d.d2 | 5 => d.d3 | 6 => d.ctl | _ => d.idx

def Desc.setField (d : Desc) (n : Nat) (v : Word) : Desc :=
  match n with
  | 0 => { d with src := v } | 1 => { d with dst := v } | 2 => { d with d0 := v } | 3 => { d with d1 := v }
  | 4 => { d with d2 := v } | 5 => { d with d3 := v } | 6 => { d with ctl := v } | _ => { d with idx := v }

def Desc.ix (d : Desc) : Bool := d.ctl.getLsbD 6
def Desc.pside (d : Desc) : Bool := d.ctl.getLsbD 5
def Desc.dec (d : Desc) : Bool := d.ctl.getLsbD 4
def Desc.esz (d : Desc) : Nat := fld d.ctl.toNat 0 3
def Desc.ibase (d : Desc) : Nat := fld d.idx.toNat 0 24

/-- The pattern side and the packed side. -/
def Desc.pattern (d : Desc) : Word := if d.pside then d.dst else d.src
def Desc.packed (d : Desc) : Word := if d.pside then d.src else d.dst

/-- U. -/
def Desc.units (d : Desc) : Nat := dimCount d.d0 * dimCount d.d1 * dimCount d.d2 * dimCount d.d3

/-- Bytes of an element, or of a block, of a format code (Table 2.6). -/
def unitBytes (fmt : Nat) : Nat := if fmt = 11 ∨ fmt = 12 then (codeBlk fmt).bytes else Fmt.width (codeFmt fmt) / 8

/-- Bytes of a unit at the source and at the destination, and on the packed side: of a decoding transfer 4 an element and 96 a block,
whichever side is packed (R295, log entry 45). -/
def Desc.srcUnit (d : Desc) (fmt : Nat) : Nat := if d.dec then unitBytes fmt else 2 ^ d.esz
def Desc.dstUnit (d : Desc) (fmt : Nat) : Nat :=
  if d.dec then (if fmt = 11 ∨ fmt = 12 then 96 else 4) else 2 ^ d.esz
def Desc.packedUnit (d : Desc) (fmt : Nat) : Nat := d.dstUnit fmt

/-- P, and the beats of a transfer. -/
def Desc.packedBytes (d : Desc) (fmt : Nat) : Nat := d.units * d.packedUnit fmt
def Desc.beats (d : Desc) (fmt : Nat) : Nat := (d.packedBytes fmt + 63) / 64

/-- j3 of unit `n`. -/
def Desc.level3 (d : Desc) (n : Nat) : Nat := n / (dimCount d.d0 * dimCount d.d1 * dimCount d.d2)

/-- pattern(n), where `q` gives j3 or its index word. -/
def Desc.patternAddr (d : Desc) (q : Nat → Nat) (n : Nat) : Int :=
  let c0 := dimCount d.d0
  let c1 := dimCount d.d1
  let c2 := dimCount d.d2
  (sideAddr d.pattern : Int) + (n % c0 : Nat) * dimStride d.d0 + (n / c0 % c1 : Nat) * dimStride d.d1 +
    (n / (c0 * c1) % c2 : Nat) * dimStride d.d2 + (q (d.level3 n) : Nat) * dimStride d.d3

/-- The address of unit `n` at the source or the destination. -/
def Desc.unitAddr (d : Desc) (fmt : Nat) (q : Nat → Nat) (dst : Bool) (n : Nat) : Int :=
  if d.pside = dst then d.patternAddr q n else ((sideAddr d.packed + n * d.packedUnit fmt : Nat) : Int)

def Desc.side (d : Desc) (dst : Bool) : Word := if dst then d.dst else d.src

/-! ## Checks at issue (R296) -/

/-- The first of `n` numbers from `i` for which `f` answers. -/
def firstFrom {α : Type} (f : Nat → Option α) (i : Nat) : Nat → Option α
  | 0 => none
  | n + 1 =>
    match f i with
    | some a => some a
    | none => firstFrom f (i + 1) n

/-- An address as a trap reports it. -/
def wordOf (a : Int) : Nat := (BitVec.ofInt 64 a).toNat

/-- The reserved bits of the descriptor's fields. -/
def Desc.reservedBits (n : Nat) : Nat :=
  match n with
  | 0 | 1 => (2 ^ 8 - 1) * 2 ^ 53 + (2 ^ 24 - 1) * 2 ^ 24
  | 2 | 3 | 4 | 5 => (2 ^ 24 - 1) * 2 ^ 24
  | 6 => 2 ^ 64 - 2 ^ 7 + 2 ^ 3
  | _ => 2 ^ 64 - 2 ^ 24

/-- The FMT of a region of the issuing core. -/
def State.regionFmt (s : State) (a : Int) : Option Nat := if a < 0 then none else s.fmtAt a.toNat

/-- A descriptor check in progress: the descriptor, the FMT of its units, the form's opcode, and the binding that SBIND asks
for (none for SGO): its file and register, and DIR. -/
structure StreamCheck where
  eng  : Nat
  desc : Desc
  fmt  : Nat
  op   : Nat
  bind : Option (VFile × Nat × Bool)
  deriving DecidableEq, Repr

/-- The FMT fixed at issue: of the source region for a decoding transfer (R295; log entry 45), else of the pattern side's. -/
def State.streamFmt (s : State) (d : Desc) : Nat :=
  let side := if d.dec then d.src else d.pattern
  if sideKind side = 0 then (s.fmtAt (sideAddr side)).getD 0 else 0

/-- The unit addresses of a side are known at issue: they do not depend on an index. -/
def Desc.fixed (d : Desc) (dst : Bool) : Bool := !d.ix || decide (d.pside ≠ dst) || decide (dimStride d.d3 = 0)

/-- The units that a side's check covers. -/
def Desc.checked (d : Desc) (dst : Bool) : Nat := if d.fixed dst then d.units else 0

/-- 0x0B of a side: a slot that is not claimed, a byte outside it, or core 1. -/
def State.slotCause (s : State) (k : StreamCheck) (dst : Bool) : Option TrapInfo :=
  let side := k.desc.side dst
  let n := sideSlot side
  if s.me.split && decide (s.me.coreNo = 1) && (decide (sideKind side = 1) || decide (sideKind side = 2)) then
    some (trapInfo 0x0B n 3 k.op)
  else if sideKind side ≠ 1 then none
  else
    match (s.tile s.here).slotFault n with
    | some c => some (trapInfo 0x0B n c k.op)
    | none =>
      let u := if dst then k.desc.dstUnit k.fmt else k.desc.srcUnit k.fmt
      firstFrom (fun i =>
        let a := k.desc.unitAddr k.fmt id dst i
        if a < 0 ∨ 49152 < a + u then some (trapInfo 0x0B n 4 k.op) else none) 0 (k.desc.checked dst)

/-- Reads and writes that a stream may make in a region (R296). -/
def Region.streams (r : Region) (dst dec : Bool) : Bool :=
  if dst then decide (r.kind ≤ 2) && !r.ro else decide (r.kind ≤ 2) || (decide (r.kind = 4) && !dec)

/-- The fault of `n` bytes at `a` that must lie in region `r`. -/
def streamFault (rs : List Region) (r : Option Region) (ok : Region → Bool) (a : Int) (n : Nat) : Option TrapInfo :=
  let known := if a < 0 then none else regionOf rs a.toNat
  let good := match r with
    | none => false
    | some r => decide (0 ≤ a) && r.covers a.toNat n && ok r
  if good then none else some (trapInfo 0x0A (wordOf a) (32 + bitOf known.isSome) 0)

/-- 0x0A of a side. -/
def State.sideCause (s : State) (k : StreamCheck) (dst : Bool) : Option TrapInfo :=
  let d := k.desc
  let u := if dst then d.dstUnit k.fmt else d.srcUnit k.fmt
  let at_ := d.unitAddr k.fmt id dst
  match sideKind (d.side dst) with
  | 0 =>
    let r := if at_ 0 < 0 then none else regionOf s.me.regions (at_ 0).toNat
    firstFrom (fun i => streamFault s.me.regions r (fun r => r.streams dst d.dec) (at_ i) u) 0 (d.checked dst)
  | 2 =>
    if dst then none
    else firstFrom (fun i =>
      if at_ i < 0 ∨ 0x40000 < at_ i + u then some (trapInfo 0x0A (wordOf (at_ i)) 40 0) else none) 0 (d.checked dst)
  | _ => none

/-- 0x0A of the index list, wherever it begins: a misaligned IBASE is a reason of 0x05, which comes after it (R293). -/
def State.indexCause (s : State) (d : Desc) : Option TrapInfo :=
  if !d.ix || decide (d.units = 0) then none
  else
    let r := regionOf s.me.regions d.ibase
    firstFrom (fun j => streamFault s.me.regions r (fun r => r.streams false false) ((d.ibase + 4 * j : Nat) : Int) 4) 0
      (dimCount d.d3)

/-- The FIELD at fault of reason 2 (Table 14.2). -/
def State.reason2 (s : State) (k : StreamCheck) : Option Nat :=
  let d := k.desc
  let sk := sideKind d.src
  let dk := sideKind d.dst
  let fmtOf (side : Word) : Option Nat := if sideKind side = 0 then s.fmtAt (sideAddr side) else none
  let wrong (b : Bool) (n : Nat) : Option Nat := if b then some n else none
  let window : Option Nat := match k.bind with
    | none => (wrong (decide (sk = 3)) 0).orElse fun _ => wrong (decide (dk = 3)) 1
    | some (_, _, out) =>
      if out then (wrong (decide (dk = 3)) 1).orElse fun _ => wrong (decide (sk ≠ 3)) 0
      else (wrong (decide (sk = 3)) 0).orElse fun _ => wrong (decide (dk ≠ 3)) 1
  [firstFrom (fun n => wrong (decide ((d.field n).toNat &&& Desc.reservedBits n ≠ 0)) n) 0 8,
    wrong (decide (3 < sk) || (decide (sk ≠ 1) && decide (sideSlot d.src ≠ 0))) 0,
    wrong (decide (3 < dk) || decide (dk = 2) || (decide (dk ≠ 1) && decide (sideSlot d.dst ≠ 0))) 1,
    window,
    wrong (decide (sideKind d.pattern = 3)) 6,
    wrong (d.dec && decide (sk ≠ 0)) 6,
    wrong (d.dec && decide (dk = 0) && decide ((fmtOf d.dst).getD 0 ≠ 0)) 1,
    wrong (!d.dec && decide (sk = 0) && decide (dk = 0) && decide (fmtOf d.src ≠ fmtOf d.dst)) 1].findSome? id

/-- The first faulting address of reason 3 (Table 14.2): of an indexed side ADDR, where the unit is no multiple of the element or
block size of the FMT fixed at issue (log entry 45). -/
def State.reason3 (s : State) (k : StreamCheck) : Option Nat :=
  let d := k.desc
  let side (dst : Bool) : Option Nat :=
    let u := if dst then d.dstUnit k.fmt else d.srcUnit k.fmt
    let indexed := !d.fixed dst && decide (sideKind (d.side dst) = 0) && decide (d.units ≠ 0)
    let el (a : Int) : Nat := match sideKind (d.side dst) with
      | 0 => unitBytes ((s.regionFmt a).getD 0)
      | 2 => 4
      | _ => 1
    let raw := decide (sideKind (d.side dst) = 0)
    if indexed ∧ u % unitBytes k.fmt ≠ 0 then some (sideAddr (d.side dst))
    else firstFrom (fun i =>
      let a := d.unitAddr k.fmt id dst i
      if a % (el a : Int) ≠ 0 ∨ (raw ∧ u % el a ≠ 0) then some (wordOf a) else none) 0 (d.checked dst)
  [side false, side true, if d.dec ∧ d.esz ≠ 0 then some (sideAddr d.src) else none,
    if d.ix ∧ d.ibase % 4 ≠ 0 then some d.ibase else none].findSome? id

def State.engine (s : State) (t e : Nat) : Engine := Table.get Engine.reset (s.tile t).engines e
def State.setEngine (s : State) (t e : Nat) (x : Engine) : State :=
  s.onTile t fun y => { y with engines := Table.set Engine.reset y.engines e x }

/-- The engine has a transfer that is not at its completion point. -/
def Engine.busy (x : Engine) : Bool :=
  match x.xfer with
  | none => false
  | some t => t.done.isNone

/-- The engine is bound to a register. -/
def Engine.isBound (x : Engine) : Bool :=
  x.all.any fun t => decide (t.bind ≠ .sgo) && !t.unbound && !t.masked

/-- The register of a binding as TINFO2 gives it. -/
def regCode (f : VFile) (n : Nat) : Nat := bitOf (decide (f = .w)) * 2 ^ 10 + n

/-- 0x05 of SGO and SBIND. -/
def State.misuse (s : State) (k : StreamCheck) : Option TrapInfo :=
  let x := s.engine s.here k.eng
  let code := match k.bind with
    | none => 0
    | some (f, n, _) => regCode f n
  let taken := match k.bind with
    | none => false
    | some (f, n, _) => (s.bound s.latch.core (vecId f n)).isSome
  if x.busy || x.isBound || taken then some (trapInfo 0x05 k.eng 1 code)
  else
    match s.reason2 k, s.reason3 k with
    | some f, _ => some (trapInfo 0x05 k.eng 2 f)
    | none, some a => some (trapInfo 0x05 k.eng 3 a)
    | none, none => none

/-- The causes of SGO and SBIND, in the order of R293. -/
def State.streamCause (s : State) (k : StreamCheck) : Option TrapInfo :=
  firstCause [s.slotCause k false, s.slotCause k true, s.sideCause k false, s.sideCause k true, s.indexCause k.desc,
    s.misuse k]

/-! ## The beats of a transfer (R295, R297) -/

/-- A byte of a side of a tile. -/
def State.sideByte (s : State) (t : Nat) (w : Word) (a : Nat) : Byte :=
  match sideKind w with
  | 0 => s.storeByte t a
  | 1 => Memory.read (s.tile t).om (sideSlot w * 49152 + a)
  | _ => Memory.read (s.tile t).visible a

def State.sideBytes (s : State) (t : Nat) (w : Word) (a n : Nat) : List Byte :=
  (List.range n).map fun i => s.sideByte t w (a + i)

/-- Write a beat's bytes at a side of a tile. -/
def State.sideWrite (s : State) (t : Nat) (w : Word) (bs : List (Nat × Byte)) : State :=
  match sideKind w with
  | 0 => s.bankWrite t bs
  | _ => s.onTile t fun x => { x with om := Memory.writeAll x.om (bs.map fun b => (sideSlot w * 49152 + b.1, b.2)) }

/-- The samples of an index word: its place in the transfer's table by cycle, and the place of the word in use. -/
def sampleKey (j cycle : Nat) : Nat := j * 16 + cycle % 8
def fixedKey (j : Nat) : Nat := j * 16 + 15

/-- The index word in use, or j3 itself. -/
def Transfer.q (x : Transfer) (j : Nat) : Nat := if x.desc.ix then Table.get 0 x.index (fixedKey j) else j

/-- The address of a unit of a running transfer. -/
def Transfer.addr (x : Transfer) (dst : Bool) (n : Nat) : Int := x.desc.unitAddr x.fmt x.q dst n

/-- The packed bytes of beat `b`, by their offset on the packed side. -/
def Transfer.offsets (x : Transfer) (b : Nat) : List Nat :=
  (List.range (min 64 (x.desc.packedBytes x.fmt - 64 * b))).map (64 * b + ·)

/-- The units that beat `b` carries, in order. -/
def Transfer.unitsOf (x : Transfer) (b : Nat) : List Nat :=
  ((x.offsets b).map fun p => p / x.desc.packedUnit x.fmt).eraseDups

/-- A unit's bytes decoded (R295). -/
def decodeUnit (fmt : Nat) (bytes : List Byte) : List Byte :=
  let v := ofBytes bytes
  if fmt = 11 ∨ fmt = 12 then (List.range 24).flatMap fun i => toBytes (blockLane .f32 (codeBlk fmt) v i) 4
  else toBytes (decodeLane (codeFmt fmt) v) 4

/-- What a decoding beat reads of a unit: its bytes decoded, or what an earlier beat of the unit kept. -/
def State.unitDecoded (s : State) (t : Nat) (x : Transfer) (n : Nat) : List Byte :=
  match x.carry with
  | some (m, bs) => if m = n then bs else decodeUnit x.fmt (s.sideBytes t x.desc.src (x.addr false n).toNat (x.desc.srcUnit x.fmt))
  | none => decodeUnit x.fmt (s.sideBytes t x.desc.src (x.addr false n).toNat (x.desc.srcUnit x.fmt))

/-- The bytes that beat `b` carries from its source: by unit and offset in the unit at the destination. -/
def State.beatBytes (s : State) (t : Nat) (x : Transfer) (b : Nat) : List (Nat × Nat × Byte) :=
  let u := x.desc.packedUnit x.fmt
  if x.desc.dec then
    (x.unitsOf b).flatMap fun n =>
      let all := (List.range (x.desc.dstUnit x.fmt)).zip (s.unitDecoded t x n)
      (all.filter fun e => decide ((n * u + e.1) / 64 = b)).map fun e => (n, e.1, e.2)
  else
    (x.offsets b).map fun p => (p / u, p % u, s.sideByte t x.desc.src ((x.addr false (p / u)).toNat + p % u))

/-- The block that later beats carry on. -/
def State.beatCarry (s : State) (t : Nat) (x : Transfer) (b : Nat) : Option (Nat × List Byte) :=
  match (x.unitsOf b).getLast? with
  | some n => if x.desc.dec then some (n, s.unitDecoded t x n) else none
  | none => none

/-- Where the bytes of a beat go. -/
def Transfer.placed (x : Transfer) (bs : List (Nat × Nat × Byte)) : List (Nat × Byte) :=
  bs.map fun e => ((x.addr true e.1).toNat + e.2.1, e.2.2)

/-- A window beat: its bytes, padded with zeros. -/
def windowBeat (bs : List (Nat × Nat × Byte)) : Vec := BitVec.ofNat 512 (ofBytes (bs.map fun e => e.2.2))

/-- The fault of an indexed unit (R302): a pending 0x0A. -/
def State.unitFault (s : State) (c : Nat) (x : Transfer) (dst : Bool) (n : Nat) : Option (Nat × Nat) :=
  let d := x.desc
  let a := x.addr dst n
  let u := if dst then d.dstUnit x.fmt else d.srcUnit x.fmt
  if d.fixed dst then none
  else
    match sideKind (d.side dst) with
    | 0 =>
      let known := if a < 0 then none else regionOf (s.core c).regions a.toNat
      match known with
      | none => some (wordOf a, 32)
      | some r =>
        let want := if d.dec && dst then 0 else x.fmt
        let el := unitBytes r.fmt
        let mis := decide (a.toNat % el ≠ 0)
        let other := decide (r.fmt ≠ want)
        if mis || other || !r.covers a.toNat u || !r.streams dst d.dec then
          some (wordOf a, 33 + 4 * bitOf mis + 128 * bitOf other)
        else none
    | 1 => if a < 0 ∨ 49152 < a + u then some (wordOf a, 32) else none
    | _ => if a < 0 ∨ 0x40000 < a + u ∨ a % 4 ≠ 0 then some (wordOf a, 40 + 4 * bitOf (decide (a % 4 ≠ 0))) else none

/-- The first fault of a beat's units. -/
def State.beatFault (s : State) (c : Nat) (x : Transfer) (dst : Bool) (b : Nat) : Option (Nat × Nat) :=
  if x.desc.pside = dst then (x.unitsOf b).findSome? (s.unitFault c x dst) else none

/-- Put a transfer of an engine back under its number. -/
def Engine.put (g : Engine) (x : Transfer) : Engine :=
  if (g.past.any fun y => decide (y.id = x.id)) && decide ((g.xfer.map fun y => y.id) ≠ some x.id) then
    { g with past := g.past.map fun y => if y.id = x.id then x else y }
  else { g with xfer := some x }

def State.setXfer (s : State) (t e : Nat) (x : Transfer) : State := s.setEngine t e ((s.engine t e).put x)

/-- A transfer has reached its completion point. -/
def State.finishXfer (s : State) (t e : Nat) (x : Transfer) : State :=
  (s.setXfer t e { x with done := some s.now }).recheckSlots t

/-- An indexed unit faults at beat `b`: the transfer stops there, and the cause is pending (R302). -/
def State.stopXfer (s : State) (t e : Nat) (x : Transfer) (b : Nat) (f : Nat × Nat) : State :=
  let info : TrapInfo := { cause := 0x0A, t0 := f.1, t1 := f.2, t2 := e, imp := true }
  let s1 := s.onCore x.core fun y => { y with pending := y.pending ++ [{ due := s.now, info := info }] }
  let y := { x with fault := true, beats := b }
  if x.written = b ∨ x.bind ≠ .sgo then s1.finishXfer t e y else s1.setXfer t e y

/-- The cycles by which an indexed transfer is later (R297). -/
def Desc.late (d : Desc) : Nat := if d.ix then 4 else 0

/-- Sample the index words that the units of some beats use first. -/
def State.sampleIndex (s : State) (t : Nat) (x : Transfer) (b count : Nat) (key : Nat → Nat) : Table Nat :=
  let js := (((List.range count).flatMap fun i => x.unitsOf (b + i)).map x.desc.level3).eraseDups
  js.foldl (fun tab j =>
    if (tab.any fun e => decide (e.1 = fixedKey j)) then tab else Table.put tab (key j) (s.storeNat t (x.desc.ibase + 4 * j) 4))
    x.index

/-- The errors that the sample of index words meets. -/
def State.eccIndex (s : State) (t : Nat) (x : Transfer) (b count : Nat) : State :=
  s.eccUse x.core t 0 (((((List.range count).flatMap fun i => x.unitsOf (b + i)).map x.desc.level3).eraseDups).map fun j =>
    (x.desc.ibase + 4 * j, 4))

/-- The words sampled four cycles ago come into use for the units of beat `b`. -/
def Transfer.fixIndex (x : Transfer) (now b : Nat) : Transfer :=
  { x with
    index := (((x.unitsOf b).map x.desc.level3).eraseDups).foldl (fun tab j =>
      if (tab.any fun e => decide (e.1 = fixedKey j)) then tab
      else Table.put tab (fixedKey j) (Table.get 0 x.index (sampleKey j (now - 4)))) x.index }

/-- A beat's read corrects what it meets, and stops the tile with 0x18 on an error beyond correction (R367, R373). -/
def State.eccBeat (s : State) (t : Nat) (x : Transfer) (b : Nat) : State :=
  if (s.tile t).errors.isEmpty then s
  else
    let w := x.desc.src
    let base := match sideKind w with
      | 0 => 0
      | 1 => sideSlot w * 49152
      | _ => (s.tile t).visibleAt
    let space := match sideKind w with
      | 0 => 0
      | 1 => 2
      | _ => 3
    s.eccUse x.core t space ((x.unitsOf b).map fun u => (base + (x.addr false u).toNat, x.desc.srcUnit x.fmt))

/-- The read of beat `b` of a transfer whose source is the tile (R297, R298). -/
def State.readBeat (s : State) (t e b : Nat) (x0 : Transfer) : State :=
  let d := x0.desc
  let x := if !d.ix then x0
    else if d.pside then { x0 with index := s.sampleIndex t x0 b 1 fixedKey }
    else x0.fixIndex s.now b
  match s.beatFault x.core x false b with
  | some f => s.stopXfer t e x b f
  | none =>
    let bs := s.beatBytes t x b
    let s := (if d.ix ∧ d.pside then s.eccIndex t x b 1 else s).eccBeat t x b
    let y := { x with read := b + 1, carry := s.beatCarry t x b }
    match x.bind with
    | .input _ _ =>
      let y := { y with fetched := y.fetched ++ [windowBeat bs] }
      if b + 1 = x.beats then s.finishXfer t e y
      else
        let s1 := s.setXfer t e y
        if b + 1 < x.popped + 8 then s1.post (s.now + 1) rankSample (.streamBeat t e x.id (b + 1) .read) else s1
    | _ =>
      let s1 := (s.setXfer t e y).postKey (s.now + 4) rankStream (8 - e) (.streamBeat t e x.id b (.write (x.placed bs)))
      if b + 1 = x.beats then s1 else s1.post (s.now + 1) rankSample (.streamBeat t e x.id (b + 1) .read)

/-- STREAM_BEAT. -/
def execStreamBeat (tile eng run beat : Nat) (what : BeatStep) (s : State) : Host.Outcome State Fault Refusal :=
  .next (match (s.engine tile eng).run run with
    | none => s
    | some x =>
        match what with
        | .index =>
          if x.fault ∨ s.halted x.core then s
          else if x.desc.pside then
            (s.setXfer tile eng { x with index := s.sampleIndex tile x beat 1 fixedKey }).eccIndex tile x beat 1
          else if x.beats ≤ x.read ∨ x.unbound then s
          else
            ((s.setXfer tile eng { x with index := s.sampleIndex tile x x.read 5 (fun j => sampleKey j s.now) }).eccIndex tile x
              x.read 5).post (s.now + 1) rankSample (.streamBeat tile eng run beat .index)
        | .read =>
          if x.fault ∨ x.read ≠ beat ∨ x.beats ≤ beat ∨ x.unbound ∨ s.halted x.core then s else s.readBeat tile eng beat x
        | .write bytes =>
          if x.fault ∧ x.beats ≤ beat then s
          else
            match s.beatFault x.core x true beat with
            | some f => s.stopXfer tile eng x beat f
            | none =>
              let y := { x with written := beat + 1 }
              let s1 := s.sideWrite tile x.desc.dst bytes
              if beat + 1 = x.beats then s1.finishXfer tile eng y else s1.setXfer tile eng y)

/-! ## Windows (R298, R140) -/

/-- WINDOW_BEAT_ENTRY: a fetched beat enters the window, where four beats have room. -/
def execWindowBeatEntry (tile eng run beat : Nat) (s : State) : Host.Outcome State Fault Refusal :=
  .next (match (s.engine tile eng).run run with
    | none => s
    | some x =>
      if x.entered ≠ beat ∨ x.beats ≤ beat ∨ x.unbound ∨ x.popped + 4 ≤ beat then s
      else
        let y := { x with entered := beat + 1, window := x.window ++ x.fetched.take 1, fetched := x.fetched.drop 1 }
        let s1 := s.setXfer tile eng y
        if beat + 1 < x.popped + 4 ∧ beat + 1 < x.beats then
          s1.post (s.now + 1) rankStream (.windowBeatEntry tile eng run (beat + 1))
        else s1)

/-- A bundle pops an input window: the beat's value, and the steps that the pop lets go on. -/
def State.popWindow (s : State) (t e : Nat) (x : Transfer) : State :=
  let p := x.popped + 1
  let y := { x with popped := p, window := x.window.drop 1, gone := x.gone ++ x.window.take 1 }
  let s1 := s.setXfer t e y
  let s2 := if x.read = p + 7 ∧ x.read < x.beats then
      s1.post (max (s.now + 1) (x.start + 2 + x.desc.late + x.read)) rankSample (.streamBeat t e x.id x.read .read) else s1
  if x.entered = p + 3 ∧ x.entered < x.beats then
    s2.post (max (s.now + 1) (x.start + 6 + x.desc.late + x.entered)) rankStream (.windowBeatEntry t e x.id x.entered)
  else s2

/-- A value lands in an output window: its beat is written 4 cycles on, or 8 under IX. -/
def State.pushWindow (s : State) (t e : Nat) (x : Transfer) (v : Vec) : State :=
  let b := x.pushed
  let s1 := s.setXfer t e { x with pushed := b + 1 }
  let s2 := if x.desc.ix then s1.post (s.now + 4) rankSample (.streamBeat t e x.id b .index) else s1
  s2.postKey (s.now + 4 + x.desc.late) rankStream (8 - e) (.windowOutputWrite t e x.id b v)

/-- A value that goes unpushed gives its window space back. -/
def State.unreserve (s : State) (t e : Nat) (x : Transfer) : State :=
  let y := { x with reserved := x.reserved - 1 }
  if y.unbound ∧ y.done.isNone ∧ y.written = y.reserved then s.finishXfer t e y else s.setXfer t e y

/-- The pushes that registers hold in flight to a transfer. -/
def Regs.pushes (r : Regs) (e run : Nat) : List Flight :=
  r.flights.filter fun f => match f.dest with
    | .push _ e1 r1 => decide (e1 = e) && decide (r1 = run)
    | _ => false

/-- A beat that a bundle pushed whose trap may still suppress it (R140): the bytes `bs` of its unit that it overwrites are kept. -/
def State.keepBytes (s : State) (t e : Nat) (x : Transfer) (beat : Nat) (bs : List (Nat × Byte)) : State :=
  if (s.core x.core).before.isNone then s
  else s.onCore x.core fun y => { y with
    before := y.before.map fun u =>
      if u.windows.any fun w => decide (w.eng = e ∧ w.run = x.id ∧ w.pushed + (u.regs.pushes e x.id).length ≤ beat) then
        { u with bytes := bs.map (fun b => (x.desc.dst, b.1, s.sideByte t x.desc.dst b.1)) ++ u.bytes } else u }

/-- WINDOW_OUTPUT_WRITE. -/
def execWindowOutputWrite (tile eng run beat : Nat) (value : Vec) (s : State) : Host.Outcome State Fault Refusal :=
  .next (match (s.engine tile eng).run run with
    | none => s
    | some x =>
      if x.fault then s
      else
        let u := x.desc.packedUnit x.fmt
        let bs := (x.offsets beat).map fun p => (p / u, p % u, value.extractLsb' (8 * (p - 64 * beat)) 8)
        match s.beatFault x.core x true beat with
        | some f => s.stopXfer tile eng x beat f
        | none =>
          let y := { x with written := beat + 1 }
          let s1 := (s.keepBytes tile eng x beat (x.placed bs)).sideWrite tile x.desc.dst (x.placed bs)
          if y.written = y.beats ∨ (y.unbound ∧ y.written = y.reserved) then s1.finishXfer tile eng y
          else s1.setXfer tile eng y)

/-! ## The stream forms (R293, R299-R301) -/

/-- A form of the array or a slot form on core 1 (R293). -/
def State.core1 (s : State) : Option TrapInfo := if s.me.split ∧ s.me.coreNo = 1 then some s.illegal else none

/-- The causes that the word and the phase of a stream form decide (R293). -/
def State.streamIllegal (s : State) (st : BitVec 3) : Option TrapInfo :=
  firstCause [if s.me.engines.contains st.toNat then none else some s.illegal, s.computeForm]

/-- SCFG: the new field is seen from the next cycle on. -/
def execScfg (st : BitVec 3) (field : StreamField) (xa : BitVec 4) (s : State) : Host.Outcome State Fault Refusal :=
  s.attempt (firstCause [s.streamIllegal st, s.holdCause 16]) fun s =>
    let x := s.engine s.here st.toNat
    (s.withhold 16 .undo).setEngine s.here st.toNat { x with desc := x.desc.setField field.toNat (s.x xa) }

/-- A transfer that starts now. -/
def startXfer (id c now fmt : Nat) (d : Desc) (b : Binding) : Transfer :=
  { id := id, core := c, desc := d, fmt := fmt, start := now, beats := d.beats fmt, bind := b, read := 0, entered := 0,
    popped := 0, reserved := 0, pushed := 0, written := 0, carry := none, fetched := [], window := [], gone := [],
    index := [], unbound := false, masked := false, fault := false, done := if d.beats fmt = 0 then some now else none }

/-- Start a transfer on an engine, and schedule its first steps; the one before it is kept while a segment may be rewound. -/
def State.startStream (s : State) (e fmt : Nat) (b : Binding) : State :=
  let x := s.engine s.here e
  let d := x.desc
  let s1 := s.setEngine s.here e { x with
    xfer := some (startXfer x.next s.latch.core s.now fmt d b), next := x.next + 1,
    past := if s.me.snaps.isEmpty then [] else x.all }
  let first := s.now + 2 + d.late
  if d.beats fmt = 0 then s1
  else
    let s2 := if d.ix ∧ !d.pside then s1.post (s.now + 2) rankSample (.streamBeat s.here e x.next 0 .index) else s1
    match b with
    | .sgo => s2.post first rankSample (.streamBeat s.here e x.next 0 .read)
    | .input _ _ =>
      (s2.post first rankSample (.streamBeat s.here e x.next 0 .read)).post (first + 4) rankStream
        (.windowBeatEntry s.here e x.next 0)
    | .output _ _ => s2

/-- What SGO and SBIND check. -/
def State.streamCheck (s : State) (st : BitVec 3) (op : Nat) (bind : Option (VFile × Nat × Bool)) : StreamCheck :=
  let d := (s.engine s.here st.toNat).desc
  { eng := st.toNat, desc := d, fmt := s.streamFmt d, op := op, bind := bind }

/-- A replay reaches the SGO or SBIND again: its transfer is seen, and its register bound, again (R361). -/
def State.unmask (s : State) (e : Nat) : State :=
  match (s.engine s.here e).all.reverse.find? fun x => x.masked with
  | none => s
  | some x => s.setXfer s.here e { x with masked := false }

/-- SBIND: bind a register and start the transfer. -/
def execSbind (st : BitVec 3) (file : VFile) (reg : BitVec 10) (out : Bool) (s : State) : Host.Outcome State Fault Refusal :=
  let k := s.streamCheck st 0x31 (some (file, reg.toNat, out))
  s.loggedAs (s.streamIllegal st) (s.streamCause k) 16 (fun s => s.unmask st.toNat) fun s =>
    ((s.withhold 16 .undo).startStream st.toNat k.fmt
      (if out then .output file reg.toNat else .input file reg.toNat)).record none []

/-- SGO: start the transfer. -/
def execSgo (st : BitVec 3) (s : State) : Host.Outcome State Fault Refusal :=
  let k := s.streamCheck st 0x34 none
  s.loggedAs (s.streamIllegal st) (s.streamCause k) 0 (fun s => s.unmask st.toNat) fun s =>
    (s.startStream st.toNat k.fmt .sgo).record none []

/-- The transfer of an engine loses its register: what an input holds is discarded, an output writes what is on its way. -/
def State.unbindXfer (s : State) (t e : Nat) : State :=
  match (s.engine t e).shown with
  | none => s
  | some x =>
    match x.bind with
    | .sgo => s
    | .input _ _ =>
      let y := { x with unbound := true, done := x.done.orElse fun _ => some (s.now + 1) }
      (s.setXfer t e y).post (s.now + 2) rankAfter (.slotDrainEnd t (sideSlot x.desc.src))
    | .output _ _ =>
      let y := { x with unbound := true }
      if y.done.isNone ∧ y.written = y.reserved then s.finishXfer t e y else s.setXfer t e y

/-- SFREE (R300). -/
def execSfree (st : BitVec 3) (s : State) : Host.Outcome State Fault Refusal :=
  s.attempt (firstCause [s.streamIllegal st, s.holdCause 16]) fun s =>
    let s1 := (s.withhold 16 .undo).unbindXfer s.here st.toNat
    s1.setEngine s.here st.toNat { s1.engine s.here st.toNat with desc := Desc.reset }

/-- SWAIT (R299). -/
def execSwait (st : BitVec 3) (bound : BitVec 20) (s : State) : Host.Outcome State Fault Refusal :=
  s.attempt (s.streamIllegal st) fun s =>
    match (s.engine s.here st.toNat).shown with
    | none => s
    | some x => if x.done.isNone then s.waitFor bound 0 (.stream st.toNat x.id) else s

/-- A waiting SWAIT's transfer has completed on an earlier cycle. -/
def State.streamDone (s : State) (c e run : Nat) : Bool :=
  match (s.engine (tileOf c) e).run run with
  | none => true
  | some x => match x.done with
    | some w => decide (w < s.now)
    | none => false

/-! ## Operand-memory slots (R240-R242, R303) -/

/-- The causes that the word and the phase of a slot or array form decide. -/
def State.arrayIllegal (s : State) : Option TrapInfo := firstCause [s.core1, s.computeForm]

/-- The lowest free slot. -/
def Tile.freeSlot (x : Tile) : Option Nat := (List.range 32).find? fun n => decide (x.slot n = .free)

/-- OMCLAIM. -/
def execOmclaim (d : BitVec 4) (s : State) : Host.Outcome State Fault Refusal :=
  s.attempt s.arrayIllegal fun s =>
    match (s.tile s.here).freeSlot with
    | none => s.writeX 1 d 0xFFFFFFFF
    | some n => (s.setSlot s.here n .claimed).writeX 1 d (BitVec.ofNat 64 n)

def State.omrelCause (s : State) (v : Word) : Option TrapInfo :=
  ((s.tile s.here).slotFault v.toNat).map fun c => trapInfo 0x0B v.toNat c 0x41

/-- OMREL. -/
def execOmrel (a : BitVec 4) (s : State) : Host.Outcome State Fault Refusal :=
  s.attempt (firstCause [s.arrayIllegal, s.omrelCause (s.x a), s.holdCause 16]) fun s => s.releaseSlots [(s.x a).toNat]

/-- A transfer still refers to a slot (R241). -/
def Transfer.refers (x : Transfer) (now n : Nat) : Bool :=
  let live := match x.done with
    | none => true
    | some w => decide (now ≤ w)
  let side (w : Word) := decide (sideKind w = 1) && decide (sideSlot w = n)
  live && (side x.desc.src || side x.desc.dst)

end Sys2Proof.Machine
end

