-- ==== Sys2Proof/Machine/Array.lean ====
section
/-! DEFINITION. The systolic array: the nest shadow, the checks and the commit of a nest, its steps, the accumulator banks,
sheaf reductions, and the forms MCFG, MGO, MWAIT, MSWAP, MCLR, MRED and MSTAT (14 R304-R317). -/

namespace Sys2Proof.Machine

/-! ## The nest shadow (Table 14.5) -/

/-- The place of a shadow field: four per level, then the global fields. -/
def shadowKey (level field : Nat) : Nat := if level < 6 then level * 4 + field else 24 + level

/-- The reset value of a shadow field. -/
def shadowReset (key : Nat) : Word :=
  if key < 24 then (if key % 4 = 0 then 1 else 0)
  else
    match key - 24 with
    | 11 => 0xBB
    | 12 => 0x3F3F
    | 14 => 0x777184040
    | _ => 0

/-- A shadow: its fields by place. -/
abbrev Shadow := Table Word

def Shadow.word (h : Shadow) (key : Nat) : Nat := (Table.get (shadowReset key) h key).toNat
def Shadow.put (h : Shadow) (key : Nat) (v : Word) : Shadow := Table.set (shadowReset key) h key v

def Shadow.cnt (h : Shadow) (l : Nat) : Nat := fld (Shadow.word h (4 * l)) 0 16
def Shadow.afmt (h : Shadow) : Nat := fld (Shadow.word h 35) 0 4
def Shadow.bfmt (h : Shadow) : Nat := fld (Shadow.word h 35) 4 4
def Shadow.m (h : Shadow) : Nat := fld (Shadow.word h 36) 0 6 + 1
def Shadow.n (h : Shadow) : Nat := fld (Shadow.word h 36) 8 6 + 1
def Shadow.apitch (h : Shadow) : Nat := fld (Shadow.word h 36) 16 16
def Shadow.bpitch (h : Shadow) : Nat := fld (Shadow.word h 36) 32 16
def Shadow.ovw (h : Shadow) : Bool := decide (fld (Shadow.word h 37) 0 1 = 1)
def Shadow.olev (h : Shadow) : Nat := fld (Shadow.word h 37) 1 3
def Shadow.ta (h : Shadow) : Bool := decide (fld (Shadow.word h 37) 4 1 = 1)
def Shadow.tb (h : Shadow) : Bool := decide (fld (Shadow.word h 37) 5 1 = 1)
def Shadow.edge (h : Shadow) : Nat := Shadow.word h 38
def Shadow.mv (h : Shadow) : Nat := fld (Shadow.edge h) 0 7
def Shadow.nv (h : Shadow) : Nat := fld (Shadow.edge h) 8 7
def Shadow.kv (h : Shadow) : Nat := fld (Shadow.edge h) 16 5
def Shadow.mlev (h : Shadow) : Nat := fld (Shadow.edge h) 24 3
def Shadow.nlev (h : Shadow) : Nat := fld (Shadow.edge h) 28 3
def Shadow.klev (h : Shadow) : Nat := fld (Shadow.edge h) 32 3

/-! ## Format pairs (Table 14.4) -/

def isBlock (f : Nat) : Bool := decide (f = 11) || decide (f = 12)

/-- The time of a step, the chunk's elements and its K-steps; none where the table does not list the pair. -/
def pairOf (a b : Nat) : Option (Nat × Nat × Nat) :=
  if a = 11 ∧ b = 11 then some (1, 24, 1)
  else if isBlock a ∧ isBlock b then some (4, 24, 1)
  else if (a = 3 ∨ a = 4) ∧ (b = 3 ∨ b = 4) then some (2, 16, 2)
  else if a = 7 ∧ b = 7 then some (2, 16, 2)
  else if (a = 1 ∨ a = 2) ∧ a = b then some (4, 8, 4)
  else none

def Shadow.pair (h : Shadow) : Nat × Nat × Nat := (pairOf (Shadow.afmt h) (Shadow.bfmt h)).getD (1, 24, 1)

/-- The accumulator is INT32. -/
def Shadow.int (h : Shadow) : Bool := decide (Shadow.afmt h = 7) && decide (Shadow.bfmt h = 7)

/-! ## The steps of a nest (R306, R307) -/

def Shadow.steps (h : Shadow) : Nat := (List.range 6).foldl (fun n l => n * Shadow.cnt h l) 1

/-- The index vector of step `j`, i0 first. -/
def Shadow.indices (h : Shadow) (j : Nat) : List Nat :=
  ((List.range 6).foldl (fun (acc : List Nat × Nat) l =>
    (acc.1 ++ [acc.2 % Shadow.cnt h l], acc.2 / Shadow.cnt h l)) ([], j)).1

/-- A sum over the levels of an index times a signed delta. -/
def Shadow.walk (h : Shadow) (is : List Nat) (field lo width : Nat) : Int :=
  ((List.range 6).zip is).foldl (fun s e =>
    s + (e.2 : Int) * sextN (fld (Shadow.word h (4 * e.1 + field)) lo width) width) 0

/-- An edge level applies at an index vector. -/
def Shadow.atEdge (h : Shadow) (is : List Nat) (lev : Nat) : Bool :=
  decide (lev = 6) || (decide (lev < 6) && decide (is.getD lev 0 + 1 = Shadow.cnt h lev))

/-- A step: its operand positions, output place, and bounds. -/
structure Step where
  aslot : Int
  aoff  : Int
  bslot : Int
  boff  : Int
  tile  : Int
  row   : Int
  mr    : Nat
  nc    : Nat
  ke    : Nat
  first : Bool
  deriving DecidableEq, Repr

def Shadow.step (h : Shadow) (j : Nat) : Step :=
  let is := Shadow.indices h j
  let a := Shadow.word h 32
  let b := Shadow.word h 33
  let c := Shadow.word h 34
  { aslot := fld a 16 5 + Shadow.walk h is 1 16 5, aoff := fld a 0 16 + Shadow.walk h is 1 0 16,
    bslot := fld b 16 5 + Shadow.walk h is 2 16 5, boff := fld b 0 16 + Shadow.walk h is 2 0 16,
    tile := fld c 0 4 + Shadow.walk h is 3 0 5, row := fld c 8 6 + Shadow.walk h is 3 8 7,
    mr := if Shadow.atEdge h is (Shadow.mlev h) then Shadow.mv h else Shadow.m h,
    nc := if Shadow.atEdge h is (Shadow.nlev h) then Shadow.nv h else Shadow.n h,
    ke := if Shadow.atEdge h is (Shadow.klev h) then Shadow.kv h else (Shadow.pair h).2.1,
    first := Shadow.ovw h && ((is.take (Shadow.olev h + 1)).all fun i => decide (i = 0)) }

/-- The bytes past an operand's position that a step fetches: `rows` rows or columns of `ke` elements (R306). -/
def extent (fmt pitch : Nat) (trans : Bool) (rows ke : Nat) : Nat :=
  if isBlock fmt then 16 * (rows - 1) * pitch + (codeBlk fmt).bytes
  else
    let es := Fmt.width (codeFmt fmt) / 8
    if trans then 16 * (ke - 1) * pitch + rows * es else 16 * (rows - 1) * pitch + ke * es

/-- The byte offset of element `e` of row or column `r` from its operand's position, for a format that is not a block's. -/
def elemOffset (fmt pitch : Nat) (trans : Bool) (r e : Nat) : Nat :=
  let es := Fmt.width (codeFmt fmt) / 8
  if trans then 16 * e * pitch + r * es else 16 * r * pitch + e * es

/-! ## The checks of MGO (R310) -/

/-- The bits of a shadow field that Table 14.5 names. -/
def shadowBits (key : Nat) : Nat :=
  if key < 24 then
    match key % 4 with
    | 0 => 0xFFFF
    | 3 => 0x7F1F
    | _ => 0x1FFFFF
  else
    match key - 24 with
    | 8 | 9 => 0x1FFFFF
    | 10 => 0x3F0F
    | 11 => 0xFF
    | 12 => 0xFFFFFFFF3F3F
    | 13 => 0x3F
    | _ => 0x7771F7F7F

def shadowLevel (key : Nat) : Nat := if key < 24 then key / 4 else key - 24

/-- A field holds a reserved bit. -/
def Shadow.reserved (h : Shadow) (key : Nat) : Bool :=
  decide (Shadow.word h key ≠ (Shadow.word h key &&& shadowBits key))

def shadowKeys : List Nat := (List.range 24) ++ [32, 33, 34, 35, 36, 37, 38]

/-- A step writes outside the accumulators. -/
def Step.outside (t : Step) : Bool :=
  decide (t.tile < 0) || decide (15 < t.tile) || decide (t.row < 0) || decide (63 < t.row + t.mr - 1)

/-- The highest level whose index differs between step `j` and the step before it. -/
def Shadow.changed (h : Shadow) (j : Nat) : Nat :=
  let a := Shadow.indices h j
  let b := Shadow.indices h (j - 1)
  ([5, 4, 3, 2, 1, 0].find? fun l => decide (a.getD l 0 ≠ b.getD l 0)).getD 0

/-- The 0x0C of a shadow. -/
def Shadow.shapeCause (h : Shadow) : Option TrapInfo :=
  let trap (code level : Nat) : Option TrapInfo := some (trapInfo 0x0C code level 0)
  let kc := (Shadow.pair h).2.1
  let bad (v top : Nat) : Bool := decide (v = 0) || decide (top < v)
  if (pairOf (Shadow.afmt h) (Shadow.bfmt h)).isNone then trap 1 11
  else
    match shadowKeys.find? (Shadow.reserved h) with
    | some k => trap 2 (shadowLevel k)
    | none =>
      if 5 < Shadow.olev h then trap 3 13
      else if (Shadow.ta h && isBlock (Shadow.afmt h)) || (Shadow.tb h && isBlock (Shadow.bfmt h)) then trap 4 13
      else if bad (Shadow.mv h) (Shadow.m h) || bad (Shadow.nv h) (Shadow.n h) || bad (Shadow.kv h) kc then trap 5 14
      else firstFrom (fun j =>
        if (Shadow.step h j).outside then trap 6 (if j = 0 then 10 else Shadow.changed h j) else none) 0 (Shadow.steps h)

/-- The 0x0B of one operand of a step. -/
def Tile.fetchCause (x : Tile) (slot off : Int) (size : Nat) : Option TrapInfo :=
  let trap (code : Nat) : Option TrapInfo := some (trapInfo 0x0B (wordOf slot) code 0x43)
  if slot < 0 ∨ 31 < slot then trap 2
  else
    match x.slotFault slot.toNat with
    | some c => trap c
    | none => if off < 0 ∨ 49152 < 16 * off + size then trap 4 else none

/-- The 0x0B of a shadow: the first fetch in step order. -/
def Tile.nestCause (x : Tile) (h : Shadow) : Option TrapInfo :=
  firstFrom (fun j =>
    let t := Shadow.step h j
    firstCause [x.fetchCause t.aslot t.aoff (extent (Shadow.afmt h) (Shadow.apitch h) (Shadow.ta h) t.mr t.ke),
      x.fetchCause t.bslot t.boff (extent (Shadow.bfmt h) (Shadow.bpitch h) (Shadow.tb h) t.nc t.ke)]) 0 (Shadow.steps h)

/-- The distinct slots that a nest reads as A, or as B. -/
def Shadow.slots (h : Shadow) (b : Bool) : List Nat :=
  ((List.range (Shadow.steps h)).map fun j =>
    let t := Shadow.step h j
    (if b then t.bslot else t.aslot).toNat).eraseDups

/-- The slots that the last-read flags release (R241, R310). -/
def Shadow.releases (h : Shadow) (lra lrb : Bool) : List Nat :=
  ((if lra then Shadow.slots h false else []) ++ (if lrb then Shadow.slots h true else [])).eraseDups

/-! ## A nest's commit and steps (R308-R311) -/

/-- A nest has been committed and has not started. -/
def ArrayUnit.queued (x : ArrayUnit) (now : Nat) : Bool := x.nests.any fun n => decide (now < n.start)

/-- Nothing is committed and unfinished (R309). -/
def ArrayUnit.quiescent (x : ArrayUnit) : Bool := x.nests.isEmpty && x.clears.isEmpty

def State.onArray (s : State) (t : Nat) (f : ArrayUnit → ArrayUnit) : State := s.onTile t fun x => { x with array := f x.array }

/-- Commit the shadow as a nest of core `c` now. -/
def State.commitNest (s : State) (c : Nat) (lra lrb : Bool) : State :=
  let t := tileOf c
  let x := (s.tile t).array
  let h := x.shadow
  let g := max (s.now + 2) x.freeAt
  let n := Shadow.steps h
  let time := (Shadow.pair h).1
  let nest : Nest :=
    { id := x.next, core := c, bank0 := x.vis, shadow := h, nantrap := (s.core c).regs.fmode.getLsbD 8, commit := s.now, start := g, steps := n,
      time := time, sampled := 0 }
  let s1 := s.onArray t fun y =>
    { y with
      nests := y.nests ++ [nest], next := y.next + 1, freeAt := g + n * time,
      lastW := if n = 0 then y.lastW else max y.lastW (g + n * time + 6) }
  (s1.post g rankSample (.nestStart t x.next)).releaseSlots (Shadow.releases h lra lrb)

def ArrayUnit.nest (x : ArrayUnit) (id : Nat) : Option Nest := x.nests.find? fun n => decide (n.id = id)

def State.dropNest (s : State) (t id : Nat) : State :=
  s.onArray t fun y => { y with nests := y.nests.filter fun n => decide (n.id ≠ id) }

/-- NEST_START: the first step's sample, or the end of a nest without steps. -/
def execNestStart (tile nest : Nat) (s : State) : Host.Outcome State Fault Refusal :=
  .next (match (s.tile tile).array.nest nest with
    | none => s
    | some n =>
      if n.steps = 0 then (s.dropNest tile nest).recheckSlots tile else s.post s.now rankSample (.arrayStep tile nest 0 none))

/-- The element of an operand at row or column `r`: an f32 pattern for a block format, else the element's bits (R306). -/
def State.fetchElem (s : State) (t slot off fmt pitch : Nat) (trans : Bool) (r e : Nat) : Nat :=
  let base := slot * 49152 + 16 * off
  let om := (s.tile t).om
  if isBlock fmt then
    blockLane .f32 (codeBlk fmt) (Memory.nat om (base + 16 * r * pitch) (codeBlk fmt).bytes) e
  else Memory.nat om (base + elemOffset fmt pitch trans r e) (Fmt.width (codeFmt fmt) / 8)

/-- The rows of A, or the columns of B, that a step samples; an element outside the valid edge is not fetched (R308). -/
def State.fetchSide (s : State) (t slot off fmt pitch : Nat) (trans : Bool) (n kc ke : Nat) : List (List (Option Nat)) :=
  (List.range n).map fun r => (List.range kc).map fun e =>
    if e < ke then some (s.fetchElem t slot off fmt pitch trans r e) else none

def State.fetchStep (s : State) (t : Nat) (h : Shadow) (p : Step) : StepOperands :=
  let kc := (Shadow.pair h).2.1
  { rows := s.fetchSide t p.aslot.toNat p.aoff.toNat (Shadow.afmt h) (Shadow.apitch h) (Shadow.ta h) p.mr kc p.ke,
    cols := s.fetchSide t p.bslot.toNat p.boff.toNat (Shadow.bfmt h) (Shadow.bpitch h) (Shadow.tb h) p.nc kc p.ke }

/-- The operand-memory bytes that a side of a step samples: each place with its size. -/
def sideRanges (slot off fmt pitch : Nat) (trans : Bool) (n ke : Nat) : List (Nat × Nat) :=
  let base := slot * 49152 + 16 * off
  let es := Fmt.width (codeFmt fmt) / 8
  if isBlock fmt then (List.range n).map fun r => (base + 16 * r * pitch, (codeBlk fmt).bytes)
  else if trans then (List.range ke).map fun e => (base + 16 * e * pitch, n * es)
  else (List.range n).map fun r => (base + 16 * r * pitch, ke * es)

/-- The operand-memory bytes that a step samples. -/
def Shadow.ranges (h : Shadow) (p : Step) : List (Nat × Nat) :=
  sideRanges p.aslot.toNat p.aoff.toNat (Shadow.afmt h) (Shadow.apitch h) (Shadow.ta h) p.mr p.ke ++
    sideRanges p.bslot.toNat p.boff.toNat (Shadow.bfmt h) (Shadow.bpitch h) (Shadow.tb h) p.nc p.ke

/-- The elements of K-step `k` of a row or column. -/
def kPart (per k : Nat) (l : List (Option Nat)) : List Nat := ((l.drop (per * k)).take per).filterMap id

/-- The format in which a sampled element is decoded. -/
def elemFmt (f : Nat) : Fmt := if isBlock f then .f32 else codeFmt f

/-- The exact sum of a K-step's products (R84, R85). -/
def dotExact (fa fb : Fmt) (xs ys : List Nat) : FVal :=
  (List.zipWith (fun x y => (mulV (decodeF fa x) (decodeF fb y)).1) xs ys).foldl (fun s p => (addV false s p).1) (.zero false)

def dotInt (xs ys : List Nat) : Int :=
  (List.zipWith (fun x y => sextN x 8 * sextN y 8) xs ys).foldl (· + ·) 0

/-- What a K-step writes into an element. -/
def kStep (h : Shadow) (first : Bool) (acc : Nat) (xs ys : List Nat) : Nat :=
  if Shadow.int h then wrapI .i32 ((if first then 0 else decodeI .i32 acc) + dotInt xs ys)
  else
    let s := dotExact (elemFmt (Shadow.afmt h)) (elemFmt (Shadow.bfmt h)) xs ys
    (roundF .f32 .rne false 0 (if first then s else (addV false (decodeF .f32 acc) s).1)).1

/-- The K-steps of a step over its tile: the tile they leave and, under NANTRAP, the first K-step that delivers a NaN, with
its row and column (R307, R311). -/
def kSteps (h : Shadow) (nantrap first : Bool) (ops : StepOperands) (per : Nat) (acc : List (List Nat)) (k : Nat) :
    Nat → List (List Nat) × Option (Nat × Nat × Nat)
  | 0 => (acc, none)
  | n + 1 =>
    let live := (ops.rows.head?.map fun r => !(kPart per k r).isEmpty).getD false
    let new := if live then
        (acc.zip ops.rows).map fun ar => (ar.1.zip ops.cols).map fun vc =>
          kStep h (first && decide (k = 0)) vc.1 (kPart per k ar.2) (kPart per k vc.2)
      else acc
    let isNan (v : Nat) : Bool := !Shadow.int h && isNanPattern .f32 v
    let hit := ((List.range new.length).zip new).findSome? fun r =>
      (((List.range r.2.length).zip r.2).find? fun c => isNan c.2).map fun c => (r.1, c.1)
    match hit with
    | some (r, c) =>
      if nantrap ∧ live then (acc, some (k, r, c)) else kSteps h nantrap first ops per new (k + 1) n
    | none => kSteps h nantrap first ops per new (k + 1) n

/-- The address of an accumulator element (R244). -/
def accAddr (tile row col : Nat) : Nat := tile * 16384 + row * 256 + col * 4

/-- The 0x0D of an array NaN (R311). -/
def nanInfo (t : Nat) (h : Shadow) (j : Nat) (p : Step) (f : Nat × Nat × Nat) : TrapInfo :=
  let is := Shadow.indices h j
  { cause := 0x0D,
    t0 := 5 * 2 ^ 44 + f.1 * 2 ^ 40 + f.2.2 * 2 ^ 32 + (p.row.toNat + f.2.1) * 2 ^ 24 + p.tile.toNat * 2 ^ 16 + t,
    t1 := fromLanes 16 (is.take 4),
    t2 := j % 2 ^ 32 * 2 ^ 32 + is.getD 5 0 * 2 ^ 16 + is.getD 4 0, imp := true }

/-- A nest is abandoned, with every nest behind it: they end now (R309, R311). -/
def State.abandon (s : State) (t : Nat) (info : TrapInfo) (c : Nat) : State :=
  let s1 := s.onArray t fun y => { y with nests := [], freeAt := s.now, lastW := y.wrote }
  (s1.onCore c fun x => { x with pending := x.pending ++ [{ due := s.now, info := info }] }).recheckSlots t

/-- A nest's update finds the zeros of every MCLR that was committed before it, also of one that has still to perform (R314). -/
def State.clearBefore (s : State) (t : Nat) (n : Nest) : State :=
  ((s.tile t).array.clears.filter fun k => decide (k.id < n.id) && !k.seen && decide (k.bank0 = n.bank0)).foldl (fun z k =>
    (z.onTile t fun x => x.setBank k.bank0 (Memory.zero (x.bank k.bank0) (k.acc * 16384) 16384)).onArray t fun y =>
      { y with clears := y.clears.map fun e => if e.id = k.id then { e with seen := true } else e }) s

/-- The update of a step (R307). One that adds to what its accumulators hold reads them (R373). -/
def State.updateStep (s0 : State) (t : Nat) (n : Nest) (j : Nat) (ops : StepOperands) : State :=
  let h := n.shadow
  let p := Shadow.step h j
  let pr := Shadow.pair h
  let at_ (r c : Nat) := accAddr p.tile.toNat (p.row.toNat + r) c
  let bank := if n.bank0 then 0 else 0x40000
  let reads := if p.first then [] else (List.range p.mr).map fun r => (bank + at_ r 0, 4 * p.nc)
  let s := (s0.clearBefore t n).eccUse n.core t 3 reads
  let acc := (List.range p.mr).map fun r => (List.range p.nc).map fun c => Memory.nat ((s.tile t).bank n.bank0) (at_ r c) 4
  let out := kSteps h n.nantrap p.first ops (pr.2.1 / pr.2.2) acc 0 pr.2.2
  let bytes := ((List.range p.mr).zip out.1).flatMap fun r =>
    ((List.range p.nc).zip r.2).flatMap fun c => atAddr (at_ r.1 c.1) (toBytes c.2 4)
  let wrote := match out.2 with
    | some (0, _, _) => false
    | _ => true
  let s1 := if wrote then
      (s.onTile t fun x => x.setBank n.bank0 (Memory.writeAll (x.bank n.bank0) bytes)).onArray t fun y => { y with wrote := s.now }
    else s
  match out.2 with
  | some f => s1.abandon t (nanInfo t h j p f) n.core
  | none => if j + 1 = n.steps then s1.dropNest t n.id else s1

/-- ARRAY_STEP: the sample of a step's operands, or its update (R309). -/
def execArrayStep (tile nest step : Nat) (ops : Option StepOperands) (s : State) : Host.Outcome State Fault Refusal :=
  .next (match (s.tile tile).array.nest nest with
    | none => s
    | some n =>
      match ops with
      | some o => s.updateStep tile n step o
      | none =>
        if s.halted n.core then s
        else
          let o := s.fetchStep tile n.shadow (Shadow.step n.shadow step)
          let s := s.eccUse n.core tile 2 (Shadow.ranges n.shadow (Shadow.step n.shadow step))
          let s1 := s.onArray tile fun y =>
            { y with nests := y.nests.map fun m => if m.id = nest then { m with sampled := step + 1 } else m }
          let s2 := s1.post (s.now + n.time + 6) rankStore (.arrayStep tile nest step (some o))
          if step + 1 = n.steps then s2.recheckSlots tile
          else s2.post (s.now + n.time) rankSample (.arrayStep tile nest (step + 1) none))

/-- A nest still refers to a slot (R241). -/
def Nest.refers (n : Nest) (now slot : Nat) : Bool :=
  decide (n.steps ≠ 0) && decide (now ≤ n.start + (n.steps - 1) * n.time) &&
    ((Shadow.slots n.shadow false).contains slot || (Shadow.slots n.shadow true).contains slot)

/-- A slot is still referred to. -/
def Tile.referred (x : Tile) (now slot : Nat) : Bool :=
  (x.engines.any fun e => e.2.all.any fun t => t.refers now slot) || x.array.nests.any fun n => n.refers now slot

/-- SLOT_DRAIN_END: the slot is free once nothing refers to it (R241). -/
def execSlotDrainEnd (tile slot : Nat) (s : State) : Host.Outcome State Fault Refusal :=
  .next (if (s.tile tile).slot slot = .draining ∧ !(s.tile tile).referred s.now slot then
    (s.setSlot tile slot .free).onTile tile fun x => { x with freed := slot :: x.freed.filter fun n => decide (n ≠ slot) } else s)

/-! ## The array's forms (R310-R315) -/

/-- MCFG. -/
def execMcfg (level field : BitVec 4) (xa : BitVec 4) (s : State) : Host.Outcome State Fault Refusal :=
  s.attempt s.arrayIllegal fun s =>
    s.onArray s.here fun y => { y with shadow := Shadow.put y.shadow (shadowKey level.toNat field.toNat) (s.x xa) }

/-- MGO (R310). -/
def execMgo (lra lrb : Bool) (bound : BitVec 20) (s : State) : Host.Outcome State Fault Refusal :=
  let x := s.tile s.here
  let h := x.array.shadow
  let slots := Shadow.releases h lra lrb
  s.logged s.arrayIllegal (firstCause [Shadow.shapeCause h, x.nestCause h]) (16 * slots.length) fun s =>
    let s1 := s.record none slots
    if x.array.queued s.now then s1.waitFor bound 0 (.nest lra lrb) else s1.commitNest s.latch.core lra lrb

/-- A waiting MGO commits when no committed nest is unstarted. -/
def State.pollNest (s : State) (c : Nat) (lra lrb : Bool) : Option State :=
  if (s.tile (tileOf c)).array.queued s.now then none else some (s.commitNest c lra lrb)

/-- What is committed has been written on an earlier cycle (R313). -/
def State.arrayDone (s : State) (c : Nat) : Bool :=
  let x := (s.tile (tileOf c)).array
  x.quiescent && decide (x.wrote < s.now)

/-- MWAIT. -/
def execMwait (bound : BitVec 20) (s : State) : Host.Outcome State Fault Refusal :=
  s.attempt s.arrayIllegal fun s => if (s.tile s.here).array.quiescent then s else s.waitFor bound 0 .array

/-- MSWAP: the swap is tried from the next cycle on, and the next bundle waits for it. -/
def execMswap (bound : BitVec 20) (s : State) : Host.Outcome State Fault Refusal :=
  s.attempt s.arrayIllegal fun s =>
    let id := (s.tile s.here).array.next
    let s1 := s.onArray s.here fun y => { y with swaps := y.swaps ++ [id], next := id + 1 }
    (s1.post (s.now + 1) rankStore (.bankSwap s.here id)).waitFor bound 0 (.swap id)

/-- BANK_SWAP (R313). -/
def execBankSwap (tile ticket : Nat) (s : State) : Host.Outcome State Fault Refusal :=
  .next (
    let x := (s.tile tile).array
    if !x.swaps.contains ticket then s
    else if x.quiescent && decide (x.wrote < s.now) then
      s.onArray tile fun y => { y with vis := !y.vis, swaps := y.swaps.filter fun n => decide (n ≠ ticket) }
    else s.post (s.now + 1) rankStore (.bankSwap tile ticket))

/-- A waiting MSWAP's swap has been made. -/
def State.swapDone (s : State) (c ticket : Nat) : Bool := !(s.tile (tileOf c)).array.swaps.contains ticket

/-- An accumulator tile that does not exist (R61). -/
def State.accIllegal (s : State) : Option TrapInfo := s.arrayIllegal

/-- MCLR (R314). -/
def execMclr (acc : BitVec 4) (s : State) : Host.Outcome State Fault Refusal :=
  s.logged s.arrayIllegal none 0 fun s =>
    let s1 := s.record none []
    let x := (s.tile s.here).array
    let at_ := max (s.now + 4) (if x.lastW = 0 then 0 else x.lastW + 1)
    (s1.onArray s.here fun y =>
      { y with
        clears := y.clears ++ [{ id := x.next, acc := acc.toNat, due := at_, issued := s.now, bank0 := x.vis, seen := false }],
        next := x.next + 1, lastW := max y.lastW at_ }).post at_ rankQuay (.mclrPerform s.here acc.toNat x.next)

/-- MCLR_PERFORM (R246). -/
def execMclrPerform (tile acc ticket : Nat) (s : State) : Host.Outcome State Fault Refusal :=
  .next (match (s.tile tile).array.clears.find? fun e => decide (e.id = ticket) with
    | none => s
    | some k =>
      (s.onTile tile fun x => if k.seen then x else x.setBank k.bank0 (Memory.zero (x.bank k.bank0) (acc * 16384) 16384)).onArray tile fun y =>
        { y with clears := y.clears.filter fun e => decide (e.id ≠ ticket), wrote := s.now })

/-- Table 14.6. -/
def State.mstat (s : State) : Nat :=
  let x := s.tile s.here
  let eng (f : Engine → Bool) (n : Nat) : Nat := bitOf (f (Table.get Engine.reset x.engines n))
  let mask (f : Engine → Bool) (ns : List Nat) : Nat := ns.foldl (fun v n => v + eng f n * 2 ^ n) 0
  if s.me.split ∧ s.me.coreNo = 1 then mask Engine.isBound [4, 5] * 2 ^ 38 + mask Engine.busy [4, 5] * 2 ^ 32
  else
    bitOf x.array.vis * 2 ^ 46 + bitOf (x.array.queued s.now) * 2 ^ 45 + bitOf (!x.array.quiescent) * 2 ^ 44 +
      mask Engine.isBound (List.range 6) * 2 ^ 38 + mask Engine.busy (List.range 6) * 2 ^ 32 +
      (List.range 32).foldl (fun v n => v + bitOf (x.claims n) * 2 ^ n) 0

/-- MSTAT. -/
def execMstat (d : BitVec 4) (s : State) : Host.Outcome State Fault Refusal :=
  s.attempt s.computeForm fun s => s.writeX 1 d (BitVec.ofNat 64 s.mstat)

/-! ## Sheaf reduction (R316, R317) -/

/-- The members of a tile's sheaf, member 0 first. -/
def sheafTiles (t : Nat) : List Nat := gangTiles 1 t

def State.mredOf (s : State) (sheaf : Nat) : Mred := Table.get Mred.none s.mreds sheaf
def State.setMred (s : State) (sheaf : Nat) (x : Mred) : State := { s with mreds := Table.set Mred.none s.mreds sheaf x }

/-- The waits of the members learn q and the latest arrival's tile. -/
def tellQ (q last : Nat) (w : Wait) : Wait :=
  match w.what with
  | .mred none acc => { w with what := .mred (some (q, last)) acc }
  | _ => w

/-- q of a reduction to which all four members have come, and the lowest tile among the latest arrivals. -/
def Mred.latest (r : Mred) : Nat × Nat :=
  let q := r.arrived.foldl (fun n e => max n e.2.2.2) 0
  (q, (((r.arrived.filter fun e => decide (e.2.2.2 = q)).map fun e => tileOf e.2.1).min?).getD 0)

/-- MRED. Row r of member m is sampled at q + POSm + 1 + 3r: in a gang every member has the same arrival, and begins with its own issue
(R168, R343); without one all begin once the last has come. A sampling step names row + 64 × member. -/
def execMred (acc : BitVec 4) (bound : BitVec 20) (s : State) : Host.Outcome State Fault Refusal :=
  s.logged s.arrayIllegal none 0 fun s =>
    let c := s.latch.core
    let tiles := sheafTiles s.here
    let sheaf := tiles.headD 0
    let m := (tiles.idxOf? s.here).getD 0
    let r := { s.mredOf sheaf with arrived := Table.put (s.mredOf sheaf).arrived m (c, acc.toNat, s.now - s.me.pos) }
    let gang := decide (s.me.gsize ≠ 0)
    let s0 := s.record none []
    let s1 := if gang then s0.post (s.now + 1) rankSample (.mredMerge sheaf (64 * m) none) else s0
    if r.arrived.length < 4 then (s1.setMred sheaf r).waitFor bound 200 (.mred none acc.toNat)
    else
      let l := r.latest
      let s2 := (s1.setMred sheaf { r with q := some l.1 }).waitFor bound 200 (.mred (some l) acc.toNat)
      let s3 := r.arrived.foldl (fun z e => z.onCore e.2.1 fun x =>
        { x with waits := x.waits.map (tellQ l.1 l.2), savedWaits := x.savedWaits.map (tellQ l.1 l.2) }) s2
      if gang then s3
      else r.arrived.foldl (fun z e => z.post (max (s.now + 1) (l.1 + 1)) rankSample (.mredMerge sheaf (64 * e.1) none)) s3

/-- A row of a member's visible tile. -/
def State.mredRow (s : State) (t acc row : Nat) : List Nat :=
  (List.range 64).map fun c => Memory.nat (s.tile t).visible (accAddr acc row c) 4

/-- ((m0 + m1) + (m2 + m3)) of one element. -/
def mergeFour (f : Fmt) (a b c d : Nat) : Nat := addFmt f (addFmt f a b) (addFmt f c d)

/-- The sample of row `k % 64` of member `k / 64`; the fourth sample of a row brings its write, at q + POS0 + 10 + 3r. -/
def State.sampleMred (s : State) (sheaf k : Nat) : State :=
  let r := s.mredOf sheaf
  let m := k / 64
  let row := k % 64
  let mine := Table.get (0, 0, 0) r.arrived m
  let q := r.q.getD mine.2.2
  if !(r.arrived.any fun e => decide (e.1 = m)) ∨ s.halted mine.1 then s
  else
    let rows := Table.put r.rows (row * 4 + m) (s.mredRow (tileOf mine.1) mine.2.1 row)
    let t := tileOf mine.1
    let s1 := (s.eccUse mine.1 t 3 [((s.tile t).visibleAt + accAddr mine.2.1 row 0, 256)]).setMred sheaf { r with rows := rows }
    let s2 := if row = 63 then s1
      else s1.post (max (s.now + 1) (q + (s.core mine.1).pos + 4 + 3 * row)) rankSample (.mredMerge sheaf (k + 1) none)
    let data := (List.range 4).filterMap fun i => (rows.find? fun e => decide (e.1 = row * 4 + i)).map Prod.snd
    if data.length < 4 then s2
    else (s2.setMred sheaf { r with rows := rows.filter fun e => decide (e.1 / 4 ≠ row) }).post
      (q + (s.core (Table.get (0, 0, 0) r.arrived 0).1).pos + 10 + 3 * row) rankQuay (.mredMerge sheaf row (some data))

/-- MRED_MERGE: the sample of a row of a member, or the write of the merged row. -/
def execMredMerge (sheaf row : Nat) (rows : Option (List (List Nat))) (s : State) : Host.Outcome State Fault Refusal :=
  .next (match rows with
    | none => s.sampleMred sheaf row
    | some data =>
      let lead := Table.get (0, 0, 0) (s.mredOf sheaf).arrived 0
      let f : Fmt := if Shadow.int (s.tile sheaf).array.shadow then .i32 else .f32
      let el (m c : Nat) : Nat := (data.getD m []).getD c 0
      let bytes := (List.range 64).flatMap fun c =>
        atAddr (accAddr lead.2.1 row c) (toBytes (mergeFour f (el 0 c) (el 1 c) (el 2 c) (el 3 c)) 4)
      let s1 := s.onTile sheaf fun x => x.setVisible (Memory.writeAll x.visible bytes)
      if row = 63 then s1.setMred sheaf Mred.none else s1)

/-- A waiting MRED is released. -/
def State.mredDone (s : State) (c : Nat) (q : Option (Nat × Nat)) : Bool :=
  match q with
  | none => false
  | some q => decide (q.1 + (s.core c).pos + 200 ≤ s.now)

/-- The producer of a waiting MRED (R317): the lowest member that has not issued, or the latest arrival. -/
def State.mredProducer (s : State) (c : Nat) (q : Option (Nat × Nat)) : Nat :=
  match q with
  | some l => l.2
  | none =>
    let tiles := sheafTiles (tileOf c)
    let r := s.mredOf (tiles.headD 0)
    ((((List.range 4).zip tiles).filter fun e => !(r.arrived.any fun a => decide (a.1 = e.1))).map Prod.snd).min?.getD (tileOf c)

end Sys2Proof.Machine
end

