-- ==== Sys2Proof/Machine/Quay.lean ====
section
/-! DEFINITION. Quay engines: handles and translation, queues, slots and promises, the units of an operation, tokens, and the
forms QGET, QPUT, QGATH, QATOM, QMARK, QTPOP and QWAIT (12 R250-R266, 15 R318-R333). -/

namespace Sys2Proof.Machine

/-! ## Handles and translation (R253-R262) -/

/-- TINFO1's code of a handle slot's state (Table 12.6). -/
def handleCode : HandleState → Nat
  | .free => 0 | .opened => 1 | .freeing => 2

/-- The 0x10 of a stale handle (R262). -/
def State.handleCause (s : State) (ctx h : Nat) : Option TrapInfo :=
  let x := if h / 256 < 1024 then s.handle ctx (h / 256) else Handle.reset
  if h / 256 < 1024 ∧ x.state = .opened ∧ x.gen = h % 256 then none
  else some (trapInfo 0x10 h (x.gen * 2 ^ 8 + handleCode x.state) ctx)

def leafFmt (e : Word) : Nat := fld e.toNat 56 4

/-- TINFO1 of a page that does not suit an access: invalid, read-only under a write, or of another FMT; 0 where it suits. -/
def leafFault (e : Word) (write : Bool) (fmt : Nat) : Nat :=
  if !e.getLsbD 63 then 1
  else if write && e.getLsbD 62 then 2
  else if leafFmt e ≠ fmt then 8
  else 0

/-- The pages of `n` bytes at a virtual address. -/
def pagesOf (va n : Nat) : List Nat :=
  if n = 0 then [] else (List.range ((va + n - 1) / 2 ^ 21 + 1 - va / 2 ^ 21)).map (va / 2 ^ 21 + ·)

/-- The 0x13 of `n` bytes at offset `off` of handle `x`, whose pages have the leaves `leaf`, for an end whose FMT is `fmt` (R325, Table
12.6); `al` is what the offset must be a multiple of. -/
def rangeFault (x : Handle) (leaf : Nat → Word) (ctx off n al : Nat) (write : Bool) (fmt : Nat) : Option TrapInfo :=
  let va := x.base + off
  if off % al ≠ 0 then some (trapInfo 0x13 va 16 ctx)
  else if x.len * 64 < off + n then some (trapInfo 0x13 off 4 ctx)
  else if write && x.ro then some (trapInfo 0x13 va 2 ctx)
  else (pagesOf va n).findSome? fun p =>
    let f := leafFault (leaf p) write fmt
    if f = 0 then none else some (trapInfo 0x13 (max va (p * 2 ^ 21)) f ctx)

/-- The 0x13 of `n` bytes at offset `off` of an operation's handle, against the tables as they stand. -/
def State.rangeCause (s : State) (ctx h off n al : Nat) (write : Bool) (fmt : Nat) : Option TrapInfo :=
  rangeFault (s.handle ctx (h / 256)) (fun p => s.leaf ctx (p * 2 ^ 21)) ctx off n al write fmt

/-- Page numbers in ascending order, each once. -/
def insertPage (p : Nat) : List Nat → List Nat
  | [] => [p]
  | x :: r => if p < x then p :: x :: r else if p = x then x :: r else x :: insertPage p r

def sortPages (ps : List Nat) : List Nat := ps.foldr insertPage []

/-- The translation that an operation keeps (R258). -/
def State.framesOf (s : State) (ctx : Nat) (ps : List Nat) : List (Nat × Word) :=
  (sortPages ps).map fun p => (p, s.leaf ctx (p * 2 ^ 21))

/-- The task of core `c` touches pages (R432). -/
def State.touch (s : State) (c : Nat) (frames : List (Nat × Word)) : State :=
  match (s.core c).part with
  | some pid => s.onPart pid fun p => { p with touched := frames.foldl (fun z f => Table.set (0 : Word) z f.1 f.2) p.touched }
  | none => s

/-! ## The TLB of a port (R258, R265) -/

def isEdge (t : Nat) : Bool := decide (xOf t = 0) || decide (xOf t = 127)

/-- The operation `key` holds the entry itself. -/
def TlbEntry.heldBy (e : TlbEntry) (key : Nat) : Bool := e.pins.any fun p => decide (p.1 = key)

/-- The earliest promise among the operations that hold an entry; 0 where none does. -/
def TlbEntry.promised (e : TlbEntry) : Nat :=
  match e.pins with
  | [] => 0
  | p :: ps => ps.foldl (fun n q => min n q.2) p.2

/-- The cycle until which a miss of operation `key` waits where every entry is held: the earliest promise among the operations that hold
one, a dying one too; 0 where only it holds any (R258). -/
def Tlb.wait (t : Tlb) (key : Nat) : Nat :=
  match ((t.entries.filter fun e => !e.leaving).flatMap fun e => e.pins.filter fun p => decide (p.1 ≠ key)).map Prod.snd with
  | [] => 0
  | p :: ps => ps.foldl min p

/-- The entry whose place a miss takes, and the cycle until which it waits: the least recently used that nothing holds, else the one held
by the operation of the earliest promise. None where operation `key` holds every entry itself (R258, R266, log entry 48). -/
def Tlb.victim (t : Tlb) (key : Nat) : Option TlbEntry × Nat :=
  let es := t.entries.reverse.filter fun e => !e.leaving
  match es.find? fun e => e.pins.isEmpty with
  | some e => (some e, 0)
  | none =>
    (es.foldl (fun best e =>
      if e.heldBy key then best
      else match best with
        | some b => if e.promised < b.promised then some e else some b
        | none => some e) none, t.wait key)

/-- The entry leaves once nothing holds it: at once, or with its last pin. -/
def Tlb.replace (t : Tlb) (v : TlbEntry) : List TlbEntry :=
  if v.pins.isEmpty then t.entries.erase v else t.entries.map fun e => if e = v then { e with leaving := true } else e

/-- One lookup: a hit moves its entry to the front; a miss walks for 180 cycles (R258). A translation that an INVAL or a MAP has replaced
since the operation issued is `gone`: its entry is dying (R264). -/
def Tlb.lookup (t : Tlb) (c ctx key page : Nat) (gone : Bool) : Tlb :=
  let own (e : TlbEntry) : Bool := decide (e.ctx = ctx) && decide (e.page = page) && !e.leaving && decide (e.dying = gone)
  match t.entries.find? own with
  | some e => { t with entries := { e with pins := (key, 0) :: e.pins } :: t.entries.erase e }
  | none =>
    let new : TlbEntry := { ctx := ctx, page := page, pins := [(key, 0)], dying := gone, leaving := false }
    let start := max (c + 1) t.walkEnd
    if (t.entries.filter fun e => !e.leaving).length < 256 then { entries := new :: t.entries, walkEnd := start + 180 }
    else
      let v := t.victim key
      { entries := new :: ((v.1.map t.replace).getD t.entries), walkEnd := max start v.2 + 180 }

/-- The operation's promise is known. -/
def Tlb.promise (t : Tlb) (key p : Nat) : Tlb :=
  { t with entries := t.entries.map fun e => { e with pins := e.pins.map fun x => if x.1 = key then (key, p) else x } }

/-! ## Slots (R321, R322) -/

/-- The cycle of slot `v` of an edge tile. -/
def slotCycle (t0 m v : Nat) : Nat := t0 + (48 * v + 24 * m) / 125

/-- The first slot at or after a cycle. -/
def firstSlot (t0 m e : Nat) : Nat := (125 * (e - t0) - 24 * m + 47) / 48

/-- The `n` first slots from `v` on that are not given. -/
def takeSlots (given : List Nat) (n v : Nat) : Nat → List Nat
  | 0 => []
  | fuel + 1 =>
    if n = 0 then []
    else if given.contains v then takeSlots given n (v + 1) fuel
    else v :: takeSlots given (n - 1) (v + 1) fuel


/-! ## Token stores (R330) -/

def Tile.store4 (x : Tile) (tid : Nat) : List Token := Table.get [] x.tokens tid

/-- The push of a token, or the promise of one. -/
def Token.pushAt (k : Token) : Nat := (k.pushed.map Prod.snd).getD k.promise

/-! ## Issue of an operation (R320-R324) -/

/-- An operation can be issued now: its queue has an entry, and its token store what it needs. -/
def State.quayRoom (s : State) (t q : Nat) (k : QuayTask) : Bool :=
  let store := (s.tile t).store4 k.tid
  decide ((s.quay t q).tasks.length < 64) && (!k.tw || !store.isEmpty) &&
    (!k.tp || decide ((if k.tw then store.length - 1 else store.length) < 64))

/-- The place of a queue's operation among the writes of one cycle: the lower queue last, and its operations in order (R269, R278). -/
def quayKey (q id : Nat) : Nat := (3 - q) * 2 ^ 64 + id

/-- The slots' units of an operation: one for an atomic. -/
def QuayTask.slotUnits (k : QuayTask) : Nat :=
  match k.kind with
  | .atom _ => 1
  | _ => k.units

/-- The second-tier access of a unit, after its slot. -/
def QuayKind.access (k : QuayKind) : Nat :=
  match k with
  | .get | .gath => 96
  | _ => 160

/-- The first event of a unit, after its slot. -/
def QuayKind.first (k : QuayKind) : Nat :=
  match k with
  | .get | .gath => 96
  | _ => 0

/-- The promised completion of an operation whose last unit has its slot at `last`, after the queue's earlier accesses. -/
def QuayTask.complete (k : QuayTask) (last access : Nat) : Nat :=
  match k.kind with
  | .get | .gath => last + 192
  | .put => last + 160
  | .atom _ => max (last + 160) (access + 1) + 96

/-- x(XD) of an operation (R324). -/
def State.promiseWord (s : State) (promise serial : Nat) : Word :=
  BitVec.ofNat 64 (serial * 2 ^ 48 + s.tickAt promise % 2 ^ 48)

/-- The cycles from the present bundle to the next, at the least, beyond one (Table 15.1). -/
def QuayTask.hold (k : QuayTask) : Nat :=
  match k.kind with
  | .gath => ((k.units / max k.row 1) + 15) / 16
  | _ => 0

/-- The operation reads the second tier, and so goes in the get FIFO (R278). -/
def QuayKind.reads : QuayKind → Bool
  | .get | .gath => true
  | _ => false

def QuayKind.isAtom : QuayKind → Bool
  | .atom _ => true
  | _ => false

/-- The first slot that an operation of a kind may take after the earlier ones of its FIFO (R278, log entry 49). -/
def QuayQueue.fifoV (x : QuayQueue) : QuayKind → Nat
  | .get | .gath => x.getV
  | .put => x.putV
  | .atom _ => 0

/-- The pages of an operation are looked up in order in its port's TLB, as the tables stood at its issue (R258). -/
def State.lookups (s : State) (t : Tlb) (org ctx key : Nat) (frames : List (Nat × Word)) : Tlb :=
  frames.foldl (fun b f => b.lookup org ctx key f.1 (decide (s.leaf ctx (f.1 * 2 ^ 21) ≠ f.2))) t

/-- The slots of operation `k` of tile `t` once its walks end at `walk`; none of `given` (R322). -/
def State.planSlots (s : State) (t : Nat) (k : QuayTask) (walk : Option Nat) (given : List Nat) : List Nat :=
  let t0 := (s.partOf (2 * t)).t0
  let first := (walk.map fun w => max k.first (firstSlot t0 (yOf t % 2) (w + 1))).getD k.first
  takeSlots given k.slotUnits first (k.slotUnits + given.length)

/-- Entry into queue `q` of an operation of core `c` whose place there begins at cycle `org` (R322-R324), and the operation as it stands
there. -/
def State.enterQuay (s : State) (c q : Nat) (k0 : QuayTask) (org : Nat) : State × QuayTask :=
  let t := tileOf c
  let x := s.quay t q
  let id := (s.tile t).issueOrder
  let port := portOf t
  let key := pinKey t id
  let tlb := s.lookups (s.tlb port) org k0.ctx key k0.frames
  let store := (s.tile t).store4 k0.tid
  let token := if k0.tw then store.head? else none
  let e1 := match token with
    | some tk => max (org + 2) (tk.pushAt + 1)
    | none => org + 2
  let e2 := if k0.kind.reads then max e1 (x.markW - 95) else e1
  let e := if x.atomA = 0 then e2 else max e2 (x.atomA + 1)
  let t0 := (s.partOf (2 * t)).t0
  let m := yOf t % 2
  let given := (s.tile t).given.filter fun v => decide (org ≤ slotCycle t0 m v)
  let k1 := { k0 with first := max (firstSlot t0 m e) (x.fifoV k0.kind) }
  let vs := s.planSlots t k1 (if tlb.walkEnd = (s.tlb port).walkEnd then none else some tlb.walkEnd) given
  let next := (vs.getLast?.map (· + 1)).getD 0
  let slots := vs.map (slotCycle t0 m)
  let last := slots.getLast?.getD 0
  let promise := if k0.units = 0 then s.now + 1 else k0.complete last x.access
  let k := { k1 with
    id := id, serial := x.serial, after := token.map fun tk => tk.id, promise := promise, slots := slots,
    left := k0.slotUnits, port := k0.slotUnits, mark := x.markId, start := some org }
  let access := if k.kind.isAtom then promise - 96 else last + k.kind.access
  let empty := decide (k.units = 0)
  let y : QuayQueue := { x with
    tasks := x.tasks ++ [k], serial := (x.serial + 1) % 256,
    status := Table.put x.status x.serial (some { id := id, promise := promise, done := none }),
    access := if empty then x.access else max x.access access,
    wrote := if !k.kind.reads && !empty then max x.wrote access else x.wrote,
    atomA := if k.kind.isAtom then access else x.atomA,
    getV := if k.kind.reads then max x.getV next else x.getV,
    putV := if k.kind.reads || k.kind.isAtom then x.putV else max x.putV next }
  let s1 := ((s.touch c k0.frames).setQuay t q y).setTlb port (tlb.promise key promise)
  let s2 := s1.onTile t fun z => { z with given := vs ++ given, issueOrder := id + 1 }
  let taken := if k.tw then store.tail else store
  let s3 := s2.setTokens t k.tid (if k.tp then taken ++ [{ id := id, promise := promise, pushed := none }] else taken)
  let s4 := if empty then s3.post promise rankQuay (.quayComplete t q k.serial)
    else s3.postKey (max s.now (slots.headD 0 + k.kind.first)) rankSample (quayKey q id) (.quayUnit t q k.serial 0 none)
  (s4, k)

/-- An operation's promise reaches x(XD), and its form the start log (R324, R359). -/
def State.answerQuay (s : State) (c : Nat) (k : QuayTask) (xd word at_ : Nat) : State :=
  let v := s.promiseWord k.promise k.serial
  (s.fly c 0 1 (.x xd) (v.setWidth 512)).recordAt word at_ (some (xd, v)) []

/-- Entry into queue `q` of an operation that is known whole: the form's word and issue cycle are recorded in the start log. -/
def State.issueQuay (s : State) (c q : Nat) (k : QuayTask) (org xd word at_ : Nat) : State :=
  (s.enterQuay c q k org).1.answerQuay c (s.enterQuay c q k org).2 xd word at_

/-! ## The forms' operands and causes (R318, R319, R325-R327) -/

/-- The context of the running core's task: its queue (R253). -/
def State.ctx (s : State) (c : Nat) : Nat := (s.partOf c).queue

/-- The 0x14 of a form whose engine the tile lacks (R167, R318). -/
def State.noEngine (s : State) (has : Bool) : Option TrapInfo :=
  if has && !(s.me.split && decide (s.me.coreNo = 1)) then none
  else some (trapInfo 0x14 s.latch.word (slotNo s.latch.slot) 0)

def State.quayIllegal (s : State) : Option TrapInfo := firstCause [s.exchangeForm, s.noEngine (isEdge s.here)]

/-- TINFO1[6] marks a quay. -/
def quayMark (t : Option TrapInfo) : Option TrapInfo := t.map fun t => { t with t1 := t.t1 ||| 64 }

/-- The 0x0A of `n` bytes at a tile-store address. -/
def State.quayStore (s : State) (w : Access) (a n al : Nat) : Option TrapInfo :=
  if n = 0 then (if a % al = 0 then none else quayMark (accessFault s.me.regions w a 1 al))
  else quayMark (accessFault s.me.regions w a n al)

def handleOf (v : Word) : Nat := fld v.toNat 40 24
def offsetOf (v : Word) : Nat := fld v.toNat 0 40

/-- The causes of QGET and QPUT. -/
def State.copyCause (s : State) (o : QuayOp) (get : Bool) : Option TrapInfo :=
  let xa := s.x o.xa
  let xb := (s.x o.xb).toNat
  let n := fld xb 32 16 * 64
  let a := fld xb 0 24
  let ctx := s.ctx s.latch.core
  firstCause [s.quayStore (if get then .store else .decode) a n 64, s.handleCause ctx (handleOf xa),
    s.rangeCause ctx (handleOf xa) (offsetOf xa) n 64 (!get) ((s.fmtAt a).getD 0)]

/-- An operation before its issue. -/
def State.newTask (s : State) (o : QuayOp) (kind : QuayKind) (store h off units : Nat) : QuayTask :=
  let ctx := s.ctx s.latch.core
  { id := 0, serial := 0, core := s.latch.core, kind := kind, store := store, va := (s.handle ctx (h / 256)).base + off,
    handle := h, ctx := ctx, row := 1, idx := [], units := units, elems := 0, frames := [], tp := o.tp, tw := o.tw,
    tid := o.tid.toNat, after := none, promise := 0, slots := [], left := 0, port := 0, mark := 0, list := 0, tables := [],
    start := none, first := 0, poison := 0, stop := false }

/-- Start an operation that has passed its checks: it counts in its handle from now on, and waits while it has no room. -/
def State.startQuay (s : State) (o : QuayOp) (k : QuayTask) : State :=
  let q := o.q.toNat
  let s1 := s.countHandle k.ctx k.handle
  if s1.quayRoom s.here q k then s1.issueQuay s.latch.core q k s.now o.xd.toNat s.latch.word s.now
  else s1.waitFor o.bound 0 (.quay q k o.xd.toNat)

def State.copyTask (s : State) (o : QuayOp) (kind : QuayKind) : QuayTask :=
  let xa := s.x o.xa
  let xb := (s.x o.xb).toNat
  let k := s.newTask o kind (fld xb 0 24) (handleOf xa) (offsetOf xa) (fld xb 32 16)
  { k with frames := s.framesOf k.ctx (pagesOf k.va (64 * k.units)) }

def execQget (o : QuayOp) (s : State) : Host.Outcome State Fault Refusal :=
  s.logged s.quayIllegal (s.copyCause o true) 0 fun s => s.startQuay o (s.copyTask o .get)
def execQput (o : QuayOp) (s : State) : Host.Outcome State Fault Refusal :=
  s.logged s.quayIllegal (s.copyCause o false) 0 fun s => s.startQuay o (s.copyTask o .put)

/-! ### Gathers (R326): index i is sampled at c + 1 + floor(i / 16), as the bank stands at the end of the cycle before -/

/-- The rows of a gather. -/
def QuayTask.rows (k : QuayTask) : Nat := k.units / max k.row 1

/-- The indices of a gather that are sampled together, 16 from number `n` on. -/
def State.gatherIdx (s : State) (list rows n : Nat) : List Nat :=
  (List.range (min 16 (rows - n))).map fun i => s.storeNat s.here (list + 4 * (n + i)) 4

def State.gatherLen (s : State) (o : QuayOp) : Nat := fld (s.x o.xd).toNat 32 8

/-- The pages that a handle covers, as the tables stand. -/
def State.handlePages (s : State) (ctx : Nat) (x : Handle) : Table Word :=
  (s.pages.filter fun e => decide (ctx * 2 ^ 27 + x.base / 2 ^ 21 ≤ e.1) &&
    decide (e.1 ≤ ctx * 2 ^ 27 + (x.base + 64 * x.len) / 2 ^ 21)).map fun e => (e.1 - ctx * 2 ^ 27, e.2)

/-- The gather of a form's operands, with none of its indices yet. Its pages are those of the tables at its issue, whichever rows its
indices name (R258). -/
def State.gatherTask (s : State) (o : QuayOp) : QuayTask :=
  let xa := s.x o.xa
  let len := s.gatherLen o
  let k := s.newTask o .gath (fld (s.x o.xb).toNat 0 24) (handleOf xa) (offsetOf xa) (fld (s.x o.xb).toNat 32 16 * len)
  { k with
    row := len, list := fld (s.x o.xd).toNat 0 24, tables := s.handlePages k.ctx (s.handle k.ctx (k.handle / 256)) }

/-- The leaf of a page that a gather may name. -/
def QuayTask.rowLeaf (k : QuayTask) (p : Nat) : Word := Table.get (0 : Word) k.tables p

/-- What is wrong with the next indices of a gather: an index word beyond correction, or a row's 0x13, which gives its offset and
number (R326, R373). -/
def State.rowsCause (s : State) (k : QuayTask) : Option TrapInfo :=
  let n := k.idx.length
  let fmt := (s.fmtAt k.store).getD 0
  let x := s.handle k.ctx (k.handle / 256)
  firstCause [s.eccCause s.here 0 (k.list + 4 * n) (4 * min 16 (k.rows - n)),
    ((s.gatherIdx k.list k.rows n).zipIdx n).findSome? fun e =>
      let off := k.va - x.base + e.1 * k.row * 64
      (rangeFault x k.rowLeaf k.ctx off (k.row * 64) 64 false fmt).map fun t => { t with t0 := off, t2 := e.2 }]

/-- The pages of the next rows of a gather that none before has named, in ascending order. -/
def State.freshRows (s : State) (k : QuayTask) : List (Nat × Word) :=
  let pages := (s.gatherIdx k.list k.rows k.idx.length).flatMap fun i => pagesOf (k.va + i * k.row * 64) (k.row * 64)
  (sortPages (pages.filter fun p => !(k.frames.any fun f => decide (f.1 = p)))).map fun p => (p, k.rowLeaf p)

/-- The next indices of a gather are sampled, and their rows' pages translated; with the last of them the tables serve no more. -/
def State.sampleRows (s : State) (k : QuayTask) : QuayTask :=
  let idx := k.idx ++ s.gatherIdx k.list k.rows k.idx.length
  { k with idx := idx, frames := k.frames ++ s.freshRows k, tables := if idx.length < k.rows then k.tables else [] }

/-- The causes of QGATH, as far as its operands and its first indices decide them. -/
def State.gatherCause (s : State) (o : QuayOp) : Option TrapInfo :=
  let xa := s.x o.xa
  let xb := (s.x o.xb).toNat
  let rows := fld xb 32 16
  let len := s.gatherLen o
  let dst := fld xb 0 24
  firstCause [s.quayStore .store dst (rows * len * 64) 64,
    if len = 0 then some (trapInfo 0x0A dst (64 + bitOf (regionOf s.me.regions dst).isSome) 0) else none,
    s.quayStore .decode (fld (s.x o.xd).toNat 0 24) (4 * rows) 4, s.handleCause (s.ctx s.latch.core) (handleOf xa),
    s.rowsCause (s.gatherTask o)]

/-- Start a gather: it enters its queue with its first rows, and the others are sampled 16 a cycle while it holds. -/
def State.startGather (s : State) (o : QuayOp) : State :=
  let q := o.q.toNat
  let k0 := s.gatherTask o
  let k := s.sampleRows k0
  let s1 := (s.eccRead s.here 0 k0.list (4 * k.idx.length)).countHandle k.ctx k.handle
  if !s1.quayRoom s.here q k then s1.waitFor o.bound k.hold (.quay q k o.xd.toNat)
  else if k.rows ≤ 16 then (s1.issueQuay s.latch.core q k s.now o.xd.toNat s.latch.word s.now).holdBy k.hold
  else
    let r := s1.enterQuay s.latch.core q k s.now
    r.1.waitFor o.bound k.hold (.quay q r.2 o.xd.toNat)

def execQgath (o : QuayOp) (s : State) : Host.Outcome State Fault Refusal :=
  s.logged s.quayIllegal (s.gatherCause o) 0 fun s => s.startGather o

def QuayQueue.task (x : QuayQueue) (serial : Nat) : Option QuayTask := x.tasks.find? fun k => decide (k.serial = serial)

def State.setTask (s : State) (t q : Nat) (k : QuayTask) : State :=
  let x := s.quay t q
  s.setQuay t q { x with tasks := x.tasks.map fun j => if j.serial = k.serial then k else j }

/-- A gather that has entered its queue learns further rows: their pages are looked up, and where they have to be walked for, its units
that have not begun take the slots, and it the promise, that R322 gives it with those walks. Log entry 18: a unit that has begun by then,
which takes more than 1,536 rows, keeps its cycles. -/
def State.moreRows (s : State) (c q : Nat) (k : QuayTask) : State × QuayTask :=
  let t := tileOf c
  let port := portOf t
  let key := pinKey t k.id
  let fresh := s.freshRows k
  let tlb := s.lookups (s.tlb port) (k.start.getD s.now) k.ctx key fresh
  let k1 := s.sampleRows k
  let s1 := (s.eccRead t 0 (k.list + 4 * k.idx.length) (4 * (k1.idx.length - k.idx.length))).touch c fresh
  if tlb.walkEnd = (s.tlb port).walkEnd then ((s1.setTlb port (tlb.promise key k.promise)).setTask t q k1, k1)
  else
    let x := s.quay t q
    let given := (s.tile t).given.drop k.slotUnits
    let vs := s.planSlots t k1 (some tlb.walkEnd) given
    let slots := vs.map (slotCycle (s.partOf (2 * t)).t0 (yOf t % 2))
    let promise := k1.complete (slots.getLast?.getD 0) x.access
    let k2 := { k1 with slots := slots, promise := promise }
    let s2 := (s1.setTlb port (tlb.promise key promise)).setQuay t q { x with
      tasks := x.tasks.map fun j => if j.id = k.id then k2 else j,
      status := Table.put x.status k.serial (some { id := k.id, promise := promise, done := none }),
      access := max x.access (slots.getLast?.getD 0 + k.kind.access),
      getV := max x.getV ((vs.getLast?.map (· + 1)).getD 0) }
    let s3 := (s2.onTile t fun z => { z with given := vs ++ given }).setTokens t k.tid
      (((s.tile t).store4 k.tid).map fun tk => if tk.id = k.id then { tk with promise := promise } else tk)
    let u := k.slotUnits - k.port
    let s4 := s3.dropEvents fun v => match v.ev with
      | .quayUnit t1 q1 n _ none => decide (t1 = t ∧ q1 = q ∧ n = k.serial)
      | _ => false
    (match slots[u]? with
      | some c => s4.postKey (max s.now (c + k.kind.first)) rankSample (quayKey q k.id) (.quayUnit t q k.serial u none)
      | none => s4, k2)

/-- How an operation that waits for its room, or for its indices, stands this cycle. -/
inductive QuayPoll where
  | issued (s : State)
  | waits (s : State) (k : QuayTask)
  | trap (t : TrapInfo)

/-- A waiting operation enters its queue once it has room, and a gather goes on with its rows. -/
def State.pollQuay (s : State) (c q : Nat) (k : QuayTask) (xd word at_ : Nat) : QuayPoll :=
  let t := tileOf c
  let more := k.kind == .gath && decide (k.idx.length < k.rows)
  match if more then s.rowsCause k else none with
  | some t => .trap t
  | none =>
    match k.start with
    | some _ =>
      let r := s.moreRows c q (((s.quay t q).task k.serial).getD k)
      if r.2.idx.length < r.2.rows then .waits r.1 r.2 else .issued (r.1.recheckDrains.answerQuay c r.2 xd word at_)
    | none =>
      let s1 := if more then s.eccRead t 0 (k.list + 4 * k.idx.length) (4 * min 16 (k.rows - k.idx.length)) else s
      let k1 := if more then s.sampleRows k else k
      if !s.quayRoom t q k1 then .waits s1 k1
      else if k1.kind == .gath && decide (k1.idx.length < k1.rows) then
        .waits (s1.enterQuay c q k1 s.now).1 (s1.enterQuay c q k1 s.now).2
      else .issued ((s1.issueQuay c q k1 s.now xd word at_).recheckDrains)

/-- The causes of QATOM (R327). -/
def State.atomCause (s : State) (o : QuayOp) (cas : Bool) : Option TrapInfo :=
  let xa := s.x o.xa
  let xb := (s.x o.xb).toNat
  let a := fld xb 0 24
  let k := fld xb 32 5
  let off := offsetOf xa
  let ctx := s.ctx s.latch.core
  let fmt := (s.fmtAt a).getD 0
  let va := (s.handle ctx (handleOf xa / 256)).base + off
  firstCause [s.quayStore .store a 64 64,
    if k = 0 ∨ (if cas then 8 else 16) < k then some (trapInfo 0x0A a (64 + bitOf (regionOf s.me.regions a).isSome) 0) else none,
    s.handleCause ctx (handleOf xa),
    if off % 4 ≠ 0 ∨ off / 64 ≠ (off + 4 * k - 1) / 64 then some (trapInfo 0x13 va 16 ctx) else none,
    s.rangeCause ctx (handleOf xa) off (4 * k) 4 true fmt,
    if fmt = 5 ∨ fmt = 8 then none else some (trapInfo 0x13 va 8 ctx)]

def State.atomTask (s : State) (o : QuayOp) (aop : Nat) : QuayTask :=
  let xa := s.x o.xa
  let xb := (s.x o.xb).toNat
  let k := s.newTask o (.atom aop) (fld xb 0 24) (handleOf xa) (offsetOf xa) 1
  { k with elems := fld xb 32 5, frames := s.framesOf k.ctx (pagesOf k.va 4) }

/-- QATOM with an operation's code. -/
def State.qatom (s : State) (o : QuayOp) (aop : Nat) : Host.Outcome State Fault Refusal :=
  s.logged s.quayIllegal (s.atomCause o (decide (aop = 6))) 0 fun s => s.startQuay o (s.atomTask o aop)

def execQatomAdd (o : QuayOp) (s : State) := s.qatom o 0
def execQatomMin (o : QuayOp) (s : State) := s.qatom o 1
def execQatomMax (o : QuayOp) (s : State) := s.qatom o 2
def execQatomMinn (o : QuayOp) (s : State) := s.qatom o 3
def execQatomMaxn (o : QuayOp) (s : State) := s.qatom o 4
def execQatomSwap (o : QuayOp) (s : State) := s.qatom o 5
def execQatomCas (o : QuayOp) (s : State) := s.qatom o 6
def execQatomAnd (o : QuayOp) (s : State) := s.qatom o 7
def execQatomOr (o : QuayOp) (s : State) := s.qatom o 8
def execQatomXor (o : QuayOp) (s : State) := s.qatom o 9

/-- QMARK (R333). -/
def execQmark (q : BitVec 2) (s : State) : Host.Outcome State Fault Refusal :=
  s.logged s.quayIllegal none 0 fun s =>
    let x := s.quay s.here q.toNat
    (s.setQuay s.here q.toNat { x with markW := x.wrote, markId := (s.tile s.here).issueOrder }).record none []

/-! ## QTPOP and QWAIT (R331, R332) -/

/-- A poison count and a cycle, as x(XD) receives them. -/
def State.resultWord (s : State) (r : Nat × Nat) : Word := BitVec.ofNat 64 (r.1 % 2 ^ 16 * 2 ^ 48 + s.tickAt r.2 % 2 ^ 48)

/-- The poison count and completion cycle of operation `id` of the tile, once it has completed. -/
def Tile.completed (x : Tile) (id : Nat) : Option (Nat × Nat) :=
  x.quays.findSome? fun e => e.2.status.findSome? fun st =>
    match st.2 with
    | some y => if y.id = id then y.done else none
    | none => none

/-- A token that has been pushed, or whose operation has completed. -/
def Tile.tokenDone (x : Tile) (k : Token) : Option (Nat × Nat) := k.pushed.orElse fun _ => x.completed k.id

/-- QTPOP. -/
def execQtpop (q : BitVec 2) (xd : BitVec 4) (tid : BitVec 2) (bound : BitVec 20) (s : State) :
    Host.Outcome State Fault Refusal :=
  let _ := q
  s.logged s.quayIllegal none 0 fun s =>
    match (s.tile s.here).store4 tid.toNat with
    | [] => s.waitFor bound 0 (.token tid.toNat none xd.toNat)
    | k :: rest =>
      let s1 := s.setTokens s.here tid.toNat rest
      match k.pushed with
      | some r => (s1.writeX 1 xd (s.resultWord r)).record (some (xd.toNat, s.resultWord r)) []
      | none => s1.waitFor bound (k.promise - s.now) (.token tid.toNat (some k) xd.toNat)

/-- Write an x register that the next bundle reads. -/
def State.putX (s : State) (c xd : Nat) (v : Word) : State :=
  s.onCore c fun x => { x with regs := x.regs.put (.x xd) (v.setWidth 512) }

/-- A waiting QTPOP has its token, pushed on an earlier cycle; one that found none takes a token pushed since, as a handler of the 0x0F
may have brought it (R331). -/
def State.pollToken (s : State) (c tid : Nat) (op : Option Token) (xd word at_ : Nat) : Option State :=
  let t := tileOf c
  let finish (z : State) (r : Nat × Nat) : Option State :=
    if r.2 < z.now then some ((z.putX c xd (z.resultWord r)).recordAt word at_ (some (xd, z.resultWord r)) []) else none
  match op with
  | some k => ((s.tile t).tokenDone k).bind (finish s)
  | none =>
    match (s.tile t).store4 tid with
    | [] => none
    | k :: rest => ((s.tile t).tokenDone k).bind (finish (s.setTokens t tid rest))

def State.serialStatus (s : State) (t q n : Nat) : Option QuayStatus := Table.get none (s.quay t q).status n

/-- Every operation of a queue that writes the tile store and was issued before operation `id` has completed on an earlier cycle (R273,
log entry 49). -/
def State.earlierDone (s : State) (t q id : Nat) : Bool :=
  !((s.quay t q).tasks.any fun j => decide (j.id < id) && !(j.kind == .put)) &&
    !((s.quay t q).status.any fun e => match e.2 with
      | some st => decide (st.id < id) && (st.done.map fun r => decide (s.now ≤ r.2)).getD false
      | none => false)

/-- QWAIT. -/
def execQwait (q : BitVec 2) (xd : BitVec 4) (bound : BitVec 20) (s : State) : Host.Outcome State Fault Refusal :=
  s.attempt s.quayIllegal fun s =>
    let n := fld (s.x xd).toNat 48 8
    match s.serialStatus s.here q.toNat n with
    | none => s.writeX 1 xd 0
    | some st =>
      match st.done with
      | some r =>
        if s.earlierDone s.here q.toNat st.id then s.writeX 1 xd (s.resultWord r) else s.waitFor bound 0 (.serial q.toNat n xd.toNat false)
      | none =>
        if s.now ≤ st.promise then s.waitFor bound (st.promise - s.now) (.serial q.toNat n xd.toNat true)
        else s.waitFor bound 0 (.serial q.toNat n xd.toNat false)

/-- A waiting QWAIT's operation has completed on an earlier cycle. -/
def State.pollSerial (s : State) (c q n xd : Nat) : Option State :=
  match s.serialStatus (tileOf c) q n with
  | none => some (s.putX c xd 0)
  | some st =>
    match st.done with
    | some r => if r.2 < s.now ∧ s.earlierDone (tileOf c) q st.id then some (s.putX c xd (s.resultWord r)) else none
    | none => none

/-- The 0x11 of a promise that was missed. -/
def State.missedInfo (s : State) (c q n : Nat) : TrapInfo :=
  trapInfo 0x11 (((s.serialStatus (tileOf c) q n).map fun st => s.tickAt st.promise).getD 0) n q

/-! ## The units of an operation (R323, R328) -/

/-- The virtual address of a unit. -/
def QuayTask.unitVa (k : QuayTask) (u : Nat) : Nat :=
  match k.kind with
  | .gath => k.va + (k.idx.getD (u / max k.row 1) 0) * k.row * 64 + u % max k.row 1 * 64
  | .atom _ => k.va / 64 * 64
  | _ => k.va + 64 * u

/-- The row of a gather's unit has still to be sampled: a rerun has stopped its form (R364). -/
def QuayTask.unsampled (k : QuayTask) (u : Nat) : Bool := k.kind == .gath && decide (k.idx.length ≤ u / max k.row 1)

/-- The leaf of the translation that the operation keeps. -/
def QuayTask.leafAt (k : QuayTask) (va : Nat) : Word :=
  ((k.frames.find? fun f => decide (f.1 = va / 2 ^ 21)).map Prod.snd).getD 0

/-- The physical address of a unit. -/
def QuayTask.phys (k : QuayTask) (va : Nat) : Nat := fld (k.leafAt va).toNat 0 23 * 2 ^ 21 + va % 2 ^ 21

/-- The card of a physical address (R250). -/
def cardOf (pa : Nat) : Nat := pa / 4096 % 40

/-- The operation cannot perform a unit now: the token it took is not pushed, or the card moves data to its spare (R329). -/
def State.quayHeld (s : State) (t : Nat) (k : QuayTask) : Bool :=
  match k.after with
  | none => false
  | some id =>
    match (s.tile t).completed id with
    | some r => decide (s.now ≤ r.2)
    | none => (s.tile t).quays.any fun e => e.2.tasks.any fun j => decide (j.id = id)

def State.cardHeld (s : State) (pa : Nat) : Bool := decide (s.now < Table.get 0 s.cardBusy (cardOf pa))

/-- The access meets the retry of its card's correction, if one is to come at its unit: the card is busy with it (R329). -/
def State.cardRetry (s : State) (pa : Nat) : State :=
  match Table.get 0 s.cardRetries (pa / 64) with
  | 0 => s
  | n => { s with
      cardRetries := Table.drop s.cardRetries (pa / 64),
      cardBusy := Table.set 0 s.cardBusy (cardOf pa) (max (Table.get 0 s.cardBusy (cardOf pa)) (s.now + n)) }

/-- Operation `j` of a queue, issued earlier, has still to reach the second tier before `k` may: they are of one FIFO, one of them is an
atomic, or a QMARK stands between them (R278, R279). -/
def QuayTask.blocks (j k : QuayTask) : Bool :=
  decide (j.id < k.id) && decide (0 < j.port) &&
    (j.kind.isAtom || k.kind.isAtom || j.kind.reads == k.kind.reads || (k.kind.reads && decide (j.id < k.mark)))

/-- An access of the operation must wait: for its card, or for earlier operations of its queue, which no promise lets happen. -/
def State.portHeld (s : State) (t q : Nat) (k : QuayTask) (pa : Nat) : Bool :=
  s.cardHeld pa || (s.quay t q).tasks.any fun j => j.blocks k

/-- A unit number that says that poison keeps the unit from being written. -/
def skipUnit : Nat := 2 ^ 32

/-- A unit has performed; with the last of them the operation completes. -/
def State.unitDone (s : State) (t q : Nat) (k : QuayTask) : State :=
  let s1 := s.setTask t q { k with left := k.left - 1 }
  if k.left ≤ 1 then s1.post s.now rankQuay (.quayComplete t q k.serial) else s1

/-- The first event of the next unit. -/
def State.nextUnit (s : State) (t q : Nat) (k : QuayTask) (u : Nat) : State :=
  match k.slots[u + 1]? with
  | some c => s.postKey (max s.now (c + k.kind.first)) rankSample (quayKey q k.id) (.quayUnit t q k.serial (u + 1) none)
  | none => s

/-- The trap of a poisoned unit under POISON TRAP. -/
def poisonInfo (k : QuayTask) (q va : Nat) : TrapInfo :=
  { cause := 0x12, t0 := va, t1 := q * 2 ^ 24 + k.handle, t2 := k.serial, imp := true }

/-- A poisoned unit's outcome: counted and read as zeros, or the operation stopped with a pending trap. -/
def State.poisonUnit (s : State) (q va due : Nat) (k : QuayTask) : State × QuayTask :=
  if (k.leafAt va).getLsbD 61 then (s, { k with poison := min (k.poison + 1) 65535 })
  else
    (s.onCore k.core fun x => { x with pending := x.pending ++ [{ due := due, info := poisonInfo k q va }] }, { k with stop := true })

/-- The second-tier read of a get's unit. -/
def State.readUnit (s : State) (t q u : Nat) (k : QuayTask) : State :=
  let va := k.unitVa u
  let pa := k.phys va
  let bad := s.tierPoison.contains (pa / 64)
  let r := if bad ∧ !k.stop then s.poisonUnit q va (s.now + 96) { k with port := k.port - 1 } else (s, { k with port := k.port - 1 })
  let data : BitVec 512 := if bad then 0 else BitVec.ofNat 512 (Memory.nat s.tier pa 64)
  let s1 := r.1.setTask t q r.2
  let s2 := s1.postKey (s.now + 96) rankQuay (quayKey q k.id) (.quayUnit t q k.serial (if r.2.stop then skipUnit + u else u) (some data))
  s2.nextUnit t q r.2 u

/-- The k elements that an atomic finds, and what it leaves (R327). -/
def atomNew (aop old w cmp : Nat) : Nat :=
  match aop with
  | 0 => (old + w) % 2 ^ 32
  | 1 => if sextN old 32 ≤ sextN w 32 then old else w
  | 2 => if sextN old 32 ≤ sextN w 32 then w else old
  | 3 => min old w
  | 4 => max old w
  | 5 => w
  | 6 => if old = cmp then w else old
  | 7 => old &&& w
  | 8 => old ||| w
  | _ => old ^^^ w

/-- The indivisible access of an atomic: what it found goes back to the operand unit 96 cycles on. -/
def State.atomAccess (s : State) (t q aop : Nat) (k : QuayTask) (ops : Nat) : State :=
  let va := k.unitVa 0
  let pa := k.phys k.va
  let bad := s.tierPoison.contains (pa / 64)
  let r := if bad then s.poisonUnit q va s.now { k with port := 0 } else (s, { k with port := 0 })
  let old (j : Nat) : Nat := if bad then 0 else Memory.nat s.tier (pa + 4 * j) 4
  let new (j : Nat) : Nat := atomNew aop (old j) (laneOf ops 32 (if aop = 6 then 8 + j else j)) (laneOf ops 32 j)
  let js := List.range k.elems
  let s1 := if r.2.stop then r.1
    else { r.1 with tier := Memory.writeAll r.1.tier (js.flatMap fun j => atAddr (pa + 4 * j) (toBytes (new j) 4)) }
  (s1.setTask t q r.2).postKey (s.now + 96) rankQuay (quayKey q k.id)
    (.quayUnit t q k.serial (if r.2.stop then skipUnit + 1 else 1) (some (BitVec.ofNat 512 (fromLanes 32 (js.map old)))))

/-- A unit's event that cannot happen now is tried again on the next cycle. -/
def State.holdUnit (s : State) (t q : Nat) (k : QuayTask) (rank unit : Nat) (data : Option (BitVec 512)) : State :=
  s.postKey (s.now + 1) rank (quayKey q k.id) (.quayUnit t q k.serial unit data)

/-- The tile-store sample of a put's unit or an atomic's operands, and its way to the second tier, where it arrives at cycle `due`. -/
def State.sampleUnit (s : State) (t q unit at_ due : Nat) (k : QuayTask) : State :=
  (s.eccUse k.core t 0 [(at_, 64)]).postKey due rankQuay (quayKey q k.id)
    (.quayUnit t q k.serial unit (some (BitVec.ofNat 512 (s.storeNat t at_ 64))))

/-- An event of a unit: `none` is its first, which reads; with data, its second, which writes (Table 15.3). -/
def State.runUnit (s : State) (tile q unit : Nat) (data : Option (BitVec 512)) (k : QuayTask) : State :=
  match k.kind, data with
  | .get, none | .gath, none =>
    let s1 := s.cardRetry (k.phys (k.unitVa unit))
    if s1.quayHeld tile k ∨ k.unsampled unit ∨ s1.portHeld tile q k (k.phys (k.unitVa unit)) then s1.holdUnit tile q k rankSample unit none
    else s1.readUnit tile q unit k
  | .get, some d | .gath, some d =>
    let s1 := if skipUnit ≤ unit then s else s.bankWrite tile (atAddr (k.store + 64 * unit) (toBytes d.toNat 64))
    s1.unitDone tile q k
  | .put, none =>
    if s.quayHeld tile k then s.holdUnit tile q k rankSample unit none
    else (s.sampleUnit tile q unit (k.store + 64 * unit) (s.now + 160) k).nextUnit tile q k unit
  | .put, some d =>
    let pa := k.phys (k.unitVa unit)
    let s1 := s.cardRetry pa
    if s1.portHeld tile q k pa then s1.holdUnit tile q k rankQuay unit (some d)
    else ({ s1 with tier := Memory.put s1.tier pa d.toNat 64 } : State).unitDone tile q { k with port := k.port - 1 }
  | .atom _, none =>
    if s.quayHeld tile k then s.holdUnit tile q k rankSample unit none
    else s.sampleUnit tile q 0 k.store (max (s.now + 160) (k.promise - 96)) k
  | .atom aop, some d =>
    if unit = 0 then
      let s1 := s.cardRetry (k.phys k.va)
      if s1.portHeld tile q k (k.phys k.va) then s1.holdUnit tile q k rankQuay 0 (some d) else s1.atomAccess tile q aop k d.toNat
    else
      let s1 := if skipUnit ≤ unit then s
        else s.bankWrite tile ((List.range k.elems).flatMap fun j => atAddr (k.store + 4 * j) (toBytes (laneOf d.toNat 32 j) 4))
      s1.unitDone tile q k

/-- QUAY_UNIT. -/
def execQuayUnit (tile q serial unit : Nat) (data : Option (BitVec 512)) (s : State) : Host.Outcome State Fault Refusal :=
  .next (match (s.quay tile q).task serial with
    | none => s
    | some k => s.runUnit tile q unit data k)

/-- QUAY_COMPLETE: the entry is free, the token pushed, and what the operation held let go (R320, R324, R330, R261, R265). -/
def execQuayComplete (tile q serial : Nat) (s : State) : Host.Outcome State Fault Refusal :=
  .next (match (s.quay tile q).task serial with
    | none => s
    | some k =>
      let x := s.quay tile q
      let done : Nat × Nat := (k.poison, s.now)
      let y : QuayQueue := { x with
        tasks := x.tasks.filter fun j => decide (j.serial ≠ serial),
        status := match Table.get none x.status serial with
          | some st => if st.id = k.id then Table.put x.status serial (some { st with done := some done }) else x.status
          | none => x.status }
      let s1 := s.setQuay tile q y
      let s2 := if k.tp then
          s1.setTokens tile k.tid (((s1.tile tile).store4 k.tid).map fun tk => if tk.id = k.id then { tk with pushed := some done } else tk)
        else s1
      let port := portOf tile
      ((s2.setTlb port ((s2.tlb port).unpin (pinKey tile k.id))).uncountHandle k.ctx k.handle).recheckDrains)

/-- HANDLE_SLOT_FREED (R261). -/
def execHandleSlotFreed (ctx slot : Nat) (s : State) : Host.Outcome State Fault Refusal :=
  .next (
    let x := s.handle ctx slot
    if x.state = .freeing ∧ x.count = 0 then s.setHandle ctx slot { x with state := .free } else s)

/-- The spare 4 KiB units of a card: 38.4 GB, less its share of firmware's top 4 GiB (R250, R372, log entry 50). -/
def cardSpareUnits (card : Nat) : Nat := 9375000 - 26214 - bitOf (decide (24 ≤ card))

/-- CARD_SPARE_MOVE: a card moves a 4 KiB unit to its spare, and accesses to it wait meanwhile (R329, R372); without a spare left it
moves nothing. -/
def execCardSpareMove (card delay : Nat) (s : State) : Host.Outcome State Fault Refusal :=
  if card < 40 then
    .next (if cardSpareUnits card ≤ Table.get 0 s.cardSpares card then s
      else { s with
        cardSpares := Table.set 0 s.cardSpares card (Table.get 0 s.cardSpares card + 1),
        cardBusy := Table.set 0 s.cardBusy card (max (Table.get 0 s.cardBusy card) (s.now + delay)) })
  else .fault .noSuchUnit

/-- Every operation of a tile's queues has completed. -/
def State.quaysDrained (s : State) (t : Nat) : Bool := (s.tile t).quays.all fun e => e.2.tasks.isEmpty

end Sys2Proof.Machine
end

