-- ==== Sys2Proof/Machine/Collective.lean ====
section
/-! DEFINITION. The collective engine: descriptors, participants, contributions and results, commit and abort, and the forms
COLL and CWAIT (15 R334-R341, 21 R419). -/

namespace Sys2Proof.Machine

/-! ## The descriptor (Table 15.4) -/

/-- A field of a descriptor: `n` bits from bit `lo` of the bytes at `off`. -/
def descField (d : List Byte) (off lo n : Nat) : Nat := fld (ofBytes (d.drop off)) lo n

def descFmt (d : List Byte) : Nat := descField d 0 20 4
def descOp (d : List Byte) : Nat := descField d 0 16 4
def descPh (d : List Byte) : Nat := descField d 0 8 6
def descNamedT (d : List Byte) : Bool := decide (descField d 0 6 1 = 1)
def descGroup (d : List Byte) : Bool := decide (descField d 0 4 1 = 1)
def descKind (d : List Byte) : Nat := descField d 0 0 4
def descRoot (d : List Byte) : Nat := descField d 4 16 16
def descExptop (d : List Byte) : Nat := descField d 4 0 16
def descNamed (d : List Byte) : Word := BitVec.ofNat 64 (descField d 8 0 64)
def descCount (d : List Byte) : Nat := descField d 0x10 0 32
def descChunk (d : List Byte) : Nat := descField d 0x14 0 32
def descStage (d : List Byte) : Nat := descField d 0x18 0 24

/-- What every participant's descriptor has alike: all but NAMED and STAGE (R336). -/
def descCommon (d : List Byte) : List Byte := d.take 8 ++ (d.drop 16).take 8 ++ d.drop 27

/-- The named buffer's bytes, for `p` participants (R337). -/
def namedSize (d : List Byte) (p : Nat) : Nat := if descKind d = 0 ∨ descKind d = 3 then descCount d else p * descCount d

/-- The staging range's bytes (R338). -/
def stageSize (d : List Byte) (p : Nat) : Nat := if descKind d = 3 then descCount d else p * descCount d

/-! ## Participants (R336, R419) -/

/-- The cores of a partition that a phaser counted at the release that began the phase, in ascending relative TID. -/
def State.rosterOf (s : State) (pid ph : Nat) : List Nat := (s.part pid).cores.filter fun m => (s.phaser pid ph).roster.contains m

/-- The parts of a group program on this module, each with its members of the group phaser, by GRANK. -/
def State.groupRosters (s : State) (pid : Nat) : List (Nat × List Nat) :=
  ((List.range (s.part pid).hdr.gcount).flatMap fun g =>
    (s.scopeOf pid).filter fun p => decide ((s.part p).hdr.grank = g)).map fun p => ((s.part p).hdr.grank, s.rosterOf p 0)

/-- The members of a part of the group: those of a part elsewhere number as many as the issuing part's (log entry 19). -/
def groupSize (rs : List (Nat × List Nat)) (own g : Nat) : Nat :=
  match rs.find? fun e => decide (e.1 = g) with
  | some e => e.2.length
  | none => own

/-- The ranks of a group program whose parts are on other modules of this module's parity group (R419). -/
def State.parityMates (s : State) (pid g : Nat) : List Nat :=
  (List.range (s.part pid).hdr.gcount).filter fun r =>
    !((s.scopeOf pid).any fun p => decide ((s.part p).hdr.grank = r)) &&
      s.serving.any fun e => decide (e.1 / 8 = g) && decide (e.2 = Table.get 0 s.jobRanks r) && decide (e.2 ≠ s.modid + 1)

/-- The participants of an xor-parity collective of core `c` (R419): the members of the group phaser, on the parity group's modules, that
have its relative TID. A part elsewhere is taken to have that member (log entry 19). -/
def State.parityParts (s : State) (c pid : Nat) : List Nat × Nat :=
  match s.parity with
  | none => ([c], 1)
  | some (g, _) =>
    let rel := (s.part pid).rel (tileOf c)
    let here := (s.scopeOf pid).flatMap fun p => (s.rosterOf p 0).filter fun m => decide ((s.part p).rel (tileOf m) = rel)
    (here, here.length + (s.parityMates pid g).length)

/-- The participants on this module, and the number of them all. -/
def State.participants (s : State) (c : Nat) (d : List Byte) : List Nat × Nat :=
  match (s.core c).part with
  | none => ([], 0)
  | some pid =>
    let p := s.part pid
    if descKind d = 4 then s.parityParts c pid
    else if descGroup d && decide (p.hdr.gcount ≠ 0) then
      let rs := s.groupRosters pid
      let own := (s.rosterOf pid 0).length
      (rs.flatMap Prod.snd, (List.range p.hdr.gcount).foldl (fun n g => n + groupSize rs own g) 0)
    else
      let ms := s.rosterOf pid (if descGroup d then 0 else descPh d)
      (ms, ms.length)

/-- A participant's rank. -/
def State.rankOf (s : State) (c : Nat) (d : List Byte) : Nat :=
  match (s.core c).part with
  | none => 0
  | some pid =>
    let p := s.part pid
    if descKind d = 4 then (s.parity.map Prod.snd).getD 0
    else if descGroup d && decide (p.hdr.gcount ≠ 0) then
      let ms := s.rosterOf pid 0
      (List.range p.hdr.grank).foldl (fun n g => n + groupSize (s.groupRosters pid) ms.length g) ((ms.idxOf? c).getD 0)
    else ((s.rosterOf pid (if descGroup d then 0 else descPh d)).idxOf? c).getD 0

/-! ## The faults of a descriptor (R338) -/

/-- A fault at a byte offset of the descriptor. -/
def descFault (cause addr t1 t2 : Nat) : TrapInfo := { cause := cause, t0 := addr, t1 := t1, t2 := t2, imp := true }

/-- A range is in one region of a core whose KIND suits. -/
def inRegion (rs : List Region) (ok : Region → Bool) (a n : Nat) : Bool :=
  match regionOf rs a with
  | none => false
  | some r => r.covers a n && ok r

/-- The first fault of the fields of a descriptor at `addr`. -/
def State.descCause (s : State) (c addr : Nat) (d : List Byte) : Option TrapInfo :=
  let p := (s.participants c d).2
  let rs := (s.core c).regions
  let bad (b : Bool) (off : Nat) : Option TrapInfo := if b then some (descFault 0x0A addr (64 + off * 2 ^ 8 + bitOf (regionOf rs addr).isSome) 0) else none
  let code (b : Bool) (off : Nat) : Option TrapInfo := if b then some (descFault 0x09 addr off 0) else none
  let kind := descKind d
  let named := descNamed d
  let stage := descStage d
  let ctx := s.ctx c
  let size := namedSize d p
  let fmt := ((regionOf rs stage).map fun r => r.fmt).getD 0
  let pinned (t : Option TrapInfo) : Option TrapInfo := t.map fun t => { t with t0 := addr, imp := true }
  firstCause [code (!([0, 1, 2, 5, 8].contains (descFmt d))) 2, code (decide (3 < descOp d)) 2, code (decide (4 < kind)) 0,
    bad (decide (descField d 0 24 8 ≠ 0)) 3, bad (decide (descField d 0 14 2 ≠ 0)) 1, bad (decide (descField d 0 7 1 ≠ 0)) 0,
    bad (descGroup d && decide (descPh d ≠ 0)) 1,
    bad (!descGroup d && decide (descPh d ≠ 0) && !((s.partOf c).hdr.phmask.getLsbD (descPh d))) 1,
    bad ((decide (kind = 2) || decide (kind = 3)) && decide (descOp d ≠ 0)) 2, bad (decide (kind = 4) && decide (descOp d ≠ 3)) 2,
    bad (decide (kind = 4) && (!descGroup d || !descNamedT d)) 0,
    bad (if kind = 3 then decide (p ≤ descRoot d) else decide (descRoot d ≠ 0)) 6,
    bad (!descGroup d && decide (descExptop d ≠ 0)) 4,
    bad (decide (descCount d % 64 ≠ 0) || decide (descCount d = 0) || decide (2 ^ 31 < descCount d)) 0x10,
    bad (decide (descChunk d % 64 ≠ 0)) 0x14,
    bad (decide (stage % 64 ≠ 0) || !inRegion rs (fun r => decide (r.kind = 2)) stage (stageSize d p)) 0x18,
    bad (decide (descField d 0x1B 0 8 ≠ 0)) 0x1B, bad ((d.drop 0x1C).any fun b => decide (b ≠ 0)) 0x1C,
    if descNamedT d then
      firstCause [if isEdge (tileOf c) then none else some (descFault 0x14 addr 0 0),
        pinned (s.handleCause ctx (handleOf named)),
        pinned (s.rangeCause ctx (handleOf named) (offsetOf named) size 64 (decide (kind ≠ 4)) fmt),
        let va := (s.handle ctx (handleOf named / 256)).base + offsetOf named
        bad (decide (kind = 4) && (decide (va % 512 ≠ 0) || decide (1536 * 10 ^ 9 < va / 8 + descCount d))) 8]
    else
      bad (decide (fld named.toNat 0 24 % 64 ≠ 0) ||
        !inRegion rs (fun r => decide (r.kind ≤ 2) && !r.ro) (fld named.toNat 0 24) size) 8]

/-! ## COLL (R338) -/

/-- The outcome of a ticket: its code and its cycle. -/
def State.setOutcome (s : State) (t ticket code : Nat) : State :=
  s.onTile t fun x => { x with
    outcomes := Table.put x.outcomes ticket (some (code, s.now)), colls := x.colls.filter fun n => decide (n ≠ ticket) }

/-- The collective that a core joins: the first of its membership in which it has no part; one of SCOPE group is shared by the group's
parts on this module (R336). -/
def State.joinable (s : State) (c pid : Nat) (d : List Byte) : Option Nat :=
  let pids := if descGroup d then s.scopeOf pid else [pid]
  (s.colls.find? fun e =>
    pids.contains e.2.pid && decide (e.2.group = descGroup d) && decide (e.2.ph = descPh d) && decide (e.2.members = (s.participants c d).1) &&
      !(e.2.parts.any fun k => decide (k.core = c))).map Prod.fst

def State.coll (s : State) (cid : Nat) : Coll := Table.get Coll.none s.colls cid
def State.setColl (s : State) (cid : Nat) (x : Coll) : State := { s with colls := Table.set Coll.none s.colls cid x }

/-- The staging range of a part. -/
def CollPart.staging (k : CollPart) (p : Nat) : Nat × Nat := (descStage k.desc, stageSize k.desc p)

/-- Packets of a stale topology that a part's tile has dropped: their number is free (R340, log entry 3). -/
def State.countStale (s : State) (k : CollPart) : State :=
  (s.onTile (tileOf k.core) fun x => { x with stale := x.stale + (Config.freeBits s.free).toNat % 2 ^ 16 }).draw

/-- What a collective's next delay depends on (R339, R433). -/
def State.collKey (s : State) (x : Coll) (stage : Nat) : List Nat :=
  let p := s.part x.pid
  [s.firmware.toNat, p.hdr.digest.toNat, p.width, p.height, p.hdr.gcount, p.hdr.grank, s.now - p.t0, stage] ++
    (x.parts.take 1).flatMap fun k => [p.rel (tileOf k.core), k.ticket]

/-- The stage of an aborted collective at which unit `u` of its part `i` is zeroed. -/
def zeroStage (i u : Nat) : Nat := i * 2 ^ 24 + u

/-- A core joins a collective; when every participant has, its contributions are sampled after a free delay. One that has aborted zeroes
the newcomer's staging range and gives it the outcome; one of which a part expects another topology aborts (R340). -/
def State.joinColl (s : State) (c ticket : Nat) (d : List Byte) : State :=
  match (s.core c).part with
  | none => s
  | some pid =>
    let ms := s.participants c d
    let ctx := s.ctx c
    let named := descNamed d
    let va := (s.handle ctx (handleOf named / 256)).base + offsetOf named
    let cid := (s.joinable c pid d).getD s.nextColl
    let old := if cid = s.nextColl then
        { Coll.none with pid := pid, group := descGroup d, ph := descPh d, members := ms.1, count := ms.2, remote := s.free }
      else s.coll cid
    let part : CollPart :=
      { core := c, ticket := ticket, desc := d, rank := s.rankOf c d, ctx := ctx,
        frames := if descNamedT d then s.framesOf ctx (pagesOf va (namedSize d ms.2)) else [], zeroed := 0, gone := false }
    let stale := descGroup d && decide (descExptop d ≠ s.topver)
    let x := { old with parts := old.parts ++ [part], stale := old.stale || stale }
    let s1 := { s.touch c part.frames with nextColl := if cid = s.nextColl then cid + 1 else s.nextColl }
    let s2 := if cid = s.nextColl then s1.draw.setColl cid x else s1.setColl cid x
    let s3 := if descNamedT d then s2.countHandle ctx (handleOf named) else s2
    if x.aborted.isSome then s3.post (s.now + 1) rankColl (.collectiveCommit cid (zeroStage old.parts.length 0))
    else if x.stale then (if old.stale then s3 else s3.post (s.now + 1) rankColl (.collectiveAbort cid 1))
    else if x.parts.length = x.members.length then
      s3.post (s.now + 2 + Config.collectiveDelay (s3.collKey x 0)) rankSample (.collectiveCommit cid 0)
    else s3

def State.collCause (s : State) (xa : BitVec 4) : Option TrapInfo :=
  let a := fld (s.x xa).toNat 0 24
  firstCause [accessFault s.me.regions .decode a 64 64,
    if 16 ≤ (s.tile s.here).colls.length then some (trapInfo 0x07 0 16 0) else none, s.eccCause s.here 0 a 64]

/-- COLL. -/
def execColl (xa xd : BitVec 4) (s : State) : Host.Outcome State Fault Refusal :=
  s.logged s.exchangeForm (s.collCause xa) 0 fun s =>
    let c := s.latch.core
    let a := fld (s.x xa).toNat 0 24
    let d := s.storeBytes s.here a 64
    let ticket := (s.tile s.here).ticket
    let s1 := (s.eccRead s.here 0 a 64).onTile s.here fun x => { x with
      ticket := (ticket + 1) % 256, outcomes := Table.drop x.outcomes ticket, colls := x.colls ++ [ticket] }
    let s2 := (s1.writeX 1 xd (BitVec.ofNat 64 ticket)).record (some (xd.toNat, BitVec.ofNat 64 ticket)) []
    match s2.descCause c a d with
    | some t =>
      (s2.setOutcome s.here ticket 3).onCore c fun x => { x with pending := x.pending ++ [{ due := s.now + 2, info := t }] }
    | none => s2.joinColl c ticket d

/-! ## Contributions and results (R337, R339) -/

/-- The physical address of a byte of a named handle. -/
def CollPart.phys (k : CollPart) (va : Nat) : Nat :=
  let leaf := ((k.frames.find? fun f => decide (f.1 = va / 2 ^ 21)).map Prod.snd).getD 0
  fld leaf.toNat 0 23 * 2 ^ 21 + va % 2 ^ 21

/-- The virtual address of a named handle's offset. -/
def State.namedVa (s : State) (k : CollPart) : Nat :=
  (s.handle k.ctx (handleOf (descNamed k.desc) / 256)).base + offsetOf (descNamed k.desc)

/-- The leaf that a part keeps for a virtual address. -/
def CollPart.leafAt (k : CollPart) (va : Nat) : Word :=
  ((k.frames.find? fun f => decide (f.1 = va / 2 ^ 21)).map Prod.snd).getD 0

/-- Unit `u` of a named buffer in the second tier: a poisoned one reads as zeros under POISON = ZERO, and as free data under TRAP (R257,
log entry 51). -/
def State.namedUnit (s : State) (k : CollPart) (va u : Nat) : List Byte :=
  let pa := k.phys (va + 64 * u)
  if s.tierPoison.contains (pa / 64) then
    (if (k.leafAt (va + 64 * u)).getLsbD 61 then List.replicate 64 0 else toBytes (Config.groupData s.free k.rank u).toNat 64)
  else Memory.bytes s.tier pa 64

/-- `n` bytes at an offset of a named buffer. -/
def State.namedBytes (s : State) (k : CollPart) (off n : Nat) : List Byte :=
  if descNamedT k.desc then ((List.range ((n + 63) / 64)).flatMap (s.namedUnit k (s.namedVa k + off))).take n
  else s.storeBytes (tileOf k.core) (fld (descNamed k.desc).toNat 0 24 + off) n

/-- The virtual address of the first unit of `n` bytes of a named buffer that POISON = TRAP keeps from being read. -/
def State.poisonedVa (s : State) (k : CollPart) (off n : Nat) : Option Nat :=
  if descNamedT k.desc then
    ((List.range ((n + 63) / 64)).map fun u => s.namedVa k + off + 64 * u).find? fun va =>
      s.tierPoison.contains (k.phys va / 64) && !(k.leafAt va).getLsbD 61
  else none

/-- Write bytes at an offset of a named buffer. -/
def State.namedWrite (s : State) (k : CollPart) (off : Nat) (bs : List Byte) : State :=
  if descNamedT k.desc then
    { s with tier := Memory.writeAll s.tier ((atAddr (s.namedVa k + off) bs).map fun e => (k.phys e.1, e.2)) }
  else s.bankWrite (tileOf k.core) (atAddr (fld (descNamed k.desc).toNat 0 24 + off) bs)

/-- Free data: `n` bytes of unit `u`. -/
def freeData (remote rank u n : Nat) : List Byte := toBytes (Config.groupData remote rank u).toNat n

/-- The offset and size of a rank's contribution in its named buffer (Table 15.5), for `p` participants. -/
def contribRange (d : List Byte) (p rank : Nat) : Nat × Nat :=
  let n := descCount d
  match descKind d with
  | 1 | 4 => (0, p * n)
  | 2 => (rank * n, n)
  | 3 => (0, if rank = descRoot d then n else 0)
  | _ => (0, n)

/-- Unit `u` of the contribution of a rank: sampled from this module's participant, free for another module's. -/
def State.contribution (s : State) (x : Coll) (d : List Byte) (u rank : Nat) : List Byte :=
  let r := contribRange d x.count rank
  let n := min 64 (r.2 - 64 * u)
  match x.parts.find? fun k => decide (k.rank = rank) with
  | some k => s.namedBytes k (r.1 + 64 * u) n
  | none => freeData x.remote rank u n

/-- What reading unit `u` of a part's contribution brings with it: corrections and the 0x18 of a tile-store buffer, the 0x12 of the first
poisoned unit of a second-tier one (R257, R373, log entry 51). -/
def State.readPart (s : State) (x : Coll) (d : List Byte) (u : Nat) (k : CollPart) : State :=
  let r := contribRange d x.count k.rank
  let n := min 64 (r.2 - 64 * u)
  if n = 0 then s
  else if descNamedT k.desc then
    match s.poisonedVa k r.1 (64 * u), s.poisonedVa k (r.1 + 64 * u) n with
    | none, some va =>
      s.onCore k.core fun y => { y with
        pending := y.pending ++ [{ due := s.now, info := { cause := 0x12, t0 := va, t1 := handleOf (descNamed k.desc), t2 := k.ticket, imp := true } }] }
    | _, _ => s
  else s.eccUse k.core (tileOf k.core) 0 [(fld (descNamed k.desc).toNat 0 24 + r.1 + 64 * u, n)]

/-- One step of the fold of R84 over the bytes of two contributions. -/
def foldStep (fmt op : Nat) (a b : List Byte) : List Byte :=
  let f := codeFmt fmt
  let w := Fmt.width f
  let n := a.length / (w / 8)
  let g (x y : Nat) : Nat := match op with
    | 0 => addFmt f x y
    | 1 => minFmt f true x y
    | 2 => minFmt f false x y
    | _ => x ^^^ y
  toBytes (fromLanes w (List.zipWith g (lanes (ofBytes a) w n) (lanes (ofBytes b) w n))) a.length

/-- A lone contribution as a reduction delivers it: its NaNs canonical, but for xor (R72). -/
def canonBytes (fmt op : Nat) (a : List Byte) : List Byte :=
  let f := codeFmt fmt
  let w := Fmt.width f
  if op = 3 ∨ Fmt.isInt f then a
  else toBytes (fromLanes w ((lanes (ofBytes a) w (a.length / (w / 8))).map (canonFmt f))) a.length

/-- The fold in ascending rank. -/
def foldRanks (fmt op : Nat) (cs : List (List Byte)) : List Byte :=
  match cs with
  | [] => []
  | [c] => canonBytes fmt op c
  | c :: ds => ds.foldl (foldStep fmt op) c

/-- The segment of a rank in each contribution. -/
def segments (cs : List (List Byte)) (n k : Nat) : List (List Byte) := cs.map fun c => (c.drop (k * n)).take n

/-- The result at a rank: the offset in its named buffer, and the bytes (Table 15.5, R419). -/
def collResult (d : List Byte) (cs : List (List Byte)) (k : Nat) : Nat × List Byte :=
  let n := descCount d
  match descKind d with
  | 0 => (0, foldRanks (descFmt d) (descOp d) cs)
  | 1 => (k * n, foldRanks (descFmt d) (descOp d) (segments cs n k))
  | 2 => (0, cs.flatten)
  | 3 => (0, cs.getD (descRoot d) [])
  | _ => (0, foldRanks (descFmt d) 3 (segments (cs.eraseIdx k) n k))

/-- The parity reserve of the second tier (Table 12.3). -/
def parityBase : Nat := 12288 * 10 ^ 9

/-- Unit `u` of a part's staging range: the layout of what it holds is free (R339, log entry 3). -/
def State.fillStaging (s : State) (x : Coll) (u : Nat) (k : CollPart) : State :=
  if (k.staging x.count).2 ≤ 64 * u then s
  else
    let v := Config.stagingUnit k.desc x.data [s.now - (s.part x.pid).t0, k.rank, u]
    s.bankWrite (tileOf k.core) (atAddr ((k.staging x.count).1 + 64 * u) (toBytes v.toNat 64))

/-- The collective ends for a part: its handle is let go, and what waits for its translation looks again. -/
def State.letGo (s : State) (cid : Nat) (k : CollPart) : State :=
  if k.gone then s
  else
    let x := s.coll cid
    let s1 := s.setColl cid { x with parts := x.parts.map fun j => if j = k then { j with gone := true } else j }
    if descNamedT k.desc then (s1.uncountHandle k.ctx (handleOf (descNamed k.desc))).recheckDrains else s1

/-- The collective ends for a part with an outcome. -/
def State.endPart (s : State) (cid code : Nat) (k : CollPart) : State :=
  (s.setOutcome (tileOf k.core) k.ticket code).letGo cid k

/-- Unit `u` of a part's result; the part is done with its last. -/
def State.writeResult (s : State) (cid u : Nat) (k : CollPart) : State :=
  let r := collResult k.desc (s.coll cid).data k.rank
  let unit := (r.2.drop (64 * u)).take 64
  if r.2.length ≤ 64 * u then s
  else
    let s1 := if descKind k.desc = 4 then
        { s with tier := Memory.writeAll s.tier (atAddr (parityBase + s.namedVa k / 8 + 64 * u) unit) }
      else s.namedWrite k (r.1 + 64 * u) unit
    if r.2.length ≤ 64 * (u + 1) then s1.endPart cid 0 k else s1

/-- A collective that has not committed is abandoned: it writes nothing, and its handles are let go (R354). -/
def State.dropColl (s : State) (cid : Nat) : State := ((s.coll cid).parts.foldl (fun z k => z.letGo cid k) s).setColl cid Coll.none

/-- The engine of a tile works for a collective other than `cid`: one that has begun, or one whose abort is zeroing the tile's staging
range. An engine performs one write a cycle (R269). -/
def State.engineBusy (s : State) (cid t : Nat) : Bool :=
  s.colls.any fun e => decide (e.1 ≠ cid) && e.2.parts.any fun k => decide (tileOf k.core = t) &&
    (if e.2.aborted.isSome then decide (0 < k.zeroed) && !k.gone else !e.2.data.isEmpty)

/-- Collective `cid` waits for the engine of one of its tiles. -/
def State.engineTaken (s : State) (cid : Nat) : Bool := (s.coll cid).parts.any fun k => s.engineBusy cid (tileOf k.core)

/-- Unit `u` of every contribution is sampled, each on its participant's module, and staged on the same cycle (R268, R339). -/
def State.sampleColl (s : State) (cid u : Nat) (d : List Byte) : State :=
  let x := s.coll cid
  let data := if u = 0 then List.replicate x.count [] else x.data
  let data1 := data.zipIdx.map fun e => e.1 ++ s.contribution x d u e.2
  (x.parts.foldl (fun z k => z.readPart x d u k) (s.setColl cid { x with data := data1 })).post s.now rankColl (.collectiveCommit cid (2 * u + 1))

/-- Unit `u` of every staging range is written; 64 cycles after the result is complete there comes the commit cycle. -/
def State.stageColl (s : State) (cid u : Nat) : State :=
  let x := s.coll cid
  let s1 := x.parts.foldl (fun z k => z.fillStaging x u k) s
  let n := Config.collectiveDelay (s.collKey x (2 * u + 1))
  if x.parts.any fun k => decide (64 * (u + 1) < (k.staging x.count).2) then
    s1.post (s.now + 1 + n) rankSample (.collectiveCommit cid (2 * u + 2))
  else s1.post (s.now + 64 + n) rankColl (.collectiveCommit cid 0)

/-- Unit `u` of every result is written. -/
def State.resultColl (s : State) (cid u : Nat) : State :=
  let x := s.coll cid
  let s1 := x.parts.foldl (fun z k => z.writeResult cid u k) (s.setColl cid { x with commit := true })
  if x.parts.any fun k => decide (64 * (u + 1) < (collResult k.desc x.data k.rank).2.length) then
    s1.post (s.now + 1) rankColl (.collectiveCommit cid (u + 1))
  else s1.setColl cid Coll.none

/-- The participants' descriptors differ, or their number does not suit the kind: every ticket is rejected (R339, R419). -/
def Coll.rejects (x : Coll) (d : List Byte) : Bool :=
  (x.parts.any fun k => decide (descCommon k.desc ≠ descCommon d)) || (decide (descKind d = 4) && decide (x.count ≠ 8))

/-- A checkpoint's parity collective commits while the guard is lost: a free spare becomes the new guard, the one of the lowest id (R421;
log entry 39). -/
def State.nameGuard (s : State) (d : List Byte) : State :=
  match s.spares with
  | [] => s
  | first :: more =>
    let g := more.foldl min first
    if descKind d = 4 ∧ s.guard_.isNone then { s with guard_ := some g, spares := s.spares.filter fun m => decide (m ≠ g) } else s

/-- A xor-parity collective commits: its task is writing a checkpoint (R420). -/
def State.checkpointed (s : State) (cid : Nat) (d : List Byte) : State :=
  if descKind d = 4 then s.onPart (s.coll cid).pid fun p => { p with checks := true } else s

/-- An aborted collective zeroes unit `u` of the staging range of its part `i`; with the last of them the part has its outcome (R340). -/
def State.zeroColl (s : State) (cid code i u : Nat) : State :=
  let x := s.coll cid
  match x.parts[i]? with
  | none => s
  | some k =>
    if u = 0 ∧ s.engineBusy cid (tileOf k.core) then s.post (s.now + 1) rankColl (.collectiveCommit cid (zeroStage i u))
    else
      let k1 := { k with zeroed := u + 1 }
      let s1 := (s.setColl cid { x with parts := x.parts.set i k1 }).bankWrite (tileOf k.core)
        (atAddr ((k.staging x.count).1 + 64 * u) (List.replicate 64 0))
      if 64 * (u + 1) < (k.staging x.count).2 then s1.post (s.now + 1) rankColl (.collectiveCommit cid (zeroStage i (u + 1)))
      else
        let s2 := s1.endPart cid code k1
        let s3 := if code = 1 then s2.countStale k1 else s2
        if (s3.coll cid).parts.length = x.members.length ∧ (s3.coll cid).parts.all CollPart.gone then s3.setColl cid Coll.none else s3

/-- The bytes of a parity group's share of the tier (R419). -/
def parityShare : Nat := 1536 * 10 ^ 9

/-- Unit `u` of the diagonal of parity group `g` comes to its guard, this module: data of other modules, and free (R418, R419, log
entry 21). -/
def State.diagonal (s : State) (g u : Nat) : State :=
  if s.guard_ = some s.modid ∧ g < 3 ∧ 64 * u < parityShare then
    { s.draw with tier := Memory.writeAll s.tier (atAddr (g * parityShare + 64 * u) (freeData s.free g u 64)) }
  else s

/-- COLLECTIVE_COMMIT (R339). Before the commit cycle K, stage 2u samples unit u of the contributions and stage 2u + 1 writes unit u of the
staging ranges; then stage 0 is K, and stage u writes unit u of every result. A collective with a stopped participant never reaches K: it
is abandoned (R354). One that has aborted zeroes its staging ranges (R340). A number of 2^64 and more is 2^64 + parity group: unit `stage` of
that group's diagonal comes to its guard. -/
def execCollectiveCommit (cid stage : Nat) (s : State) : Host.Outcome State Fault Refusal :=
  .next (
    let x := s.coll cid
    match x.parts, x.aborted with
    | [], _ => if 2 ^ 64 ≤ cid then s.diagonal (cid - 2 ^ 64) stage else s
    | _, some (code, _) => s.zeroColl cid code (stage / 2 ^ 24) (stage % 2 ^ 24)
    | first :: _, none =>
      if x.commit then s.resultColl cid stage
      else if x.parts.any fun k => s.halted k.core then s.dropColl cid
      else if stage % 2 = 1 then s.stageColl cid (stage / 2)
      else if stage ≠ 0 then s.sampleColl cid (stage / 2) first.desc
      else if x.data.isEmpty then
        if s.engineTaken cid then s.post (s.now + 1) rankSample (.collectiveCommit cid 0) else s.sampleColl cid 0 first.desc
      else if x.rejects first.desc then (x.parts.foldl (fun z k => z.endPart cid 3 k) s).setColl cid Coll.none
      else ((s.nameGuard first.desc).checkpointed cid first.desc).resultColl cid 0)

/-- COLLECTIVE_ABORT (R340): before the commit cycle, every staging range is zeroed, one unit a cycle, and every ticket has the outcome;
`reason` 4 is the end of the partition, which abandons the collective. -/
def execCollectiveAbort (cid reason : Nat) (s : State) : Host.Outcome State Fault Refusal :=
  .next (
    let x := s.coll cid
    if x.parts.isEmpty ∨ x.commit then s
    else if reason = 4 then s.dropColl cid
    else if x.aborted.isSome then s
    else
      let s1 := (s.setColl cid { x with aborted := some (reason, s.now) }).dropEvents fun v => match v.ev with
        | .collectiveCommit n _ => decide (n = cid)
        | _ => false
      (List.range x.parts.length).foldl (fun z i => z.post z.now rankColl (.collectiveCommit cid (zeroStage i 0))) s1)

/-- Every group collective that has not committed aborts. -/
def State.abortGroup (s : State) (reason : Nat) : State :=
  s.colls.foldl (fun z e =>
    if e.2.group ∧ !e.2.commit then z.post z.now rankColl (.collectiveAbort e.1 reason) else z) s

/-! ## CWAIT (R341) -/

/-- What CWAIT delivers. -/
def State.collWord (s : State) (t ticket code : Nat) : Word :=
  BitVec.ofNat 64 (min (s.tile t).stale 0xFFFF * 2 ^ 16 + ticket * 2 ^ 8 + code)

def State.clearStale (s : State) (t : Nat) : State := s.onTile t fun x => { x with stale := 0 }

/-- CWAIT. -/
def execCwait (xd : BitVec 4) (bound : BitVec 20) (s : State) : Host.Outcome State Fault Refusal :=
  s.attempt s.exchangeForm fun s =>
    let n := fld (s.x xd).toNat 0 8
    let done (code : Nat) := (s.writeX 1 xd (s.collWord s.here n code)).clearStale s.here
    match Table.get none (s.tile s.here).outcomes n with
    | some (code, _) => done code
    | none => if (s.tile s.here).colls.contains n then s.waitFor bound 0 (.coll n xd.toNat) else done 3

/-- A waiting CWAIT's collective has ended on an earlier cycle. -/
def State.pollColl (s : State) (c ticket xd : Nat) : Option State :=
  match Table.get none (s.tile (tileOf c)).outcomes ticket with
  | some (code, w) =>
    if w < s.now then some ((s.putX c xd (s.collWord (tileOf c) ticket code)).clearStale (tileOf c)) else none
  | none => none

/-- The producer of a waiting CWAIT: the lowest-ranked participant that has not issued; free where all have. -/
def State.collProducer (s : State) (c ticket : Nat) : Nat :=
  match s.colls.find? fun e => e.2.parts.any fun k => decide (k.core = c) && decide (k.ticket = ticket) with
  | none => (Config.freeBits s.free).toNat % 2 ^ 14
  | some e =>
    match e.2.members.find? fun m => !(e.2.parts.any fun k => decide (k.core = m)) with
    | some m => tileOf m
    | none => (Config.freeBits s.free).toNat % 2 ^ 14

/-- Every collective of a tile is done. -/
def State.collsDone (s : State) (t : Nat) : Bool := (s.tile t).colls.isEmpty

end Sys2Proof.Machine
end

