-- ==== Sys2Proof/Machine/Optical.lean ====
section
/-! DEFINITION. Optical circuits and the time group: tables, scheduled and demand messages, the matching engine, gaps, pauses
and lost ports, topology versions, drift, the loss of a module, and the forms OSEND, ORECV, OGAP, OVER and TADJ (21
R396-R423). -/

namespace Sys2Proof.Machine

/-! ## Lanes and tables (R396, R397) -/

/-- The tile on which a lane terminates, and the lane of a port tile. -/
def laneTile (l : Nat) : Nat := (if l < 64 then 0 else 79) * 128 + 2 * (l % 64)
def portLaneOf (t : Nat) : Option Nat :=
  if xOf t % 2 ≠ 0 then none
  else if yOf t = 0 then some (xOf t / 2)
  else if yOf t = 79 then some (64 + xOf t / 2)
  else none

def controlLane (l : Nat) : Bool := decide (l % 64 = 0)

/-- An entry's fields (Table 21.1). -/
def optKind (e : Nat) : Nat := fld e 0 3
def optLen (e : Nat) : Nat := fld e 32 16
def optBase (e : Nat) : Nat := fld e 48 24
def optPent (e : Nat) : Nat := fld e 74 6
def optPlane (e : Nat) : Nat := fld e 87 7
def optPmod (e : Nat) : Nat := fld e 94 18

def State.opt (s : State) (t e : Nat) : OptChan := Table.get OptChan.reset (s.tile t).opts e
def State.onOpt (s : State) (t e : Nat) (f : OptChan → OptChan) : State :=
  s.onTile t fun x => { x with opts := Table.set OptChan.reset x.opts e (f (Table.get OptChan.reset x.opts e)) }
def State.optEntry (s : State) (t e : Nat) : Nat := (s.opt t e).entry.toNat

def State.port (s : State) (p : Nat) : Port := Table.get Port.reset s.ports p
def State.setPort (s : State) (p : Nat) (x : Port) : State := { s with ports := Table.set Port.reset s.ports p x }
def State.lane (s : State) (l : Nat) : Lane := (s.tile (laneTile l)).lane
def State.setLane (s : State) (l : Nat) (x : Lane) : State := s.onTile (laneTile l) fun t => { t with lane := x }

/-- ARR as a form that issues now sees it (R400). -/
def OptChan.arrived (c : OptChan) (now : Nat) : Nat := c.arr - (if c.lastAt = now then c.lastN else 0)

/-- A lost port whose notice has come (R407). -/
def State.portSeen (s : State) (m p : Nat) : Bool :=
  s.lostPorts.any fun e => decide (e.1 = m) && decide (e.2.1 = p) && decide (e.2.2 ≤ s.now)

/-! ## Departures (R399, R401, R406) -/

/-- The slots of a lane: flit `k` leaves floor(768 k / 125) cycles after flit 0 (R396). -/
def slotAfter (k : Nat) : Nat := 768 * k / 125

/-- The departure of flit `k` of a message. -/
def OptMsg.depart (m : OptMsg) (k : Nat) : Nat := m.first + slotAfter (k - m.base)

/-- The flits that a port's retry buffer holds. -/
def retryMax : Nat := 2048

/-- A flit of lane `home`'s tile leaves by lane `l` now, with the present topology version (R409): it is written at its peer 2,996 cycles
on, and a demand flit is acknowledged to its tile after 3,000 more. -/
def State.leave (s : State) (l home pmod : Nat) (demand : Bool) (f : OptFlit) : State :=
  let s1 := if pmod = s.modid then
      s.post (s.now + 2996) rankChannel
        (.opticalFlitWrite { f with topv := BitVec.ofNat 16 s.topver, sched := if demand then s.now + 2996 else f.sched }) else s
  if demand then
    let s2 := s1.setLane l { s1.lane l with slotAt := max (s1.lane l).slotAt (s.now + 6) }
    (s2.setLane home { s2.lane home with unacked := (s2.lane home).unacked + 1 }).post (s.now + 5996) rankAfter (.opticalAck (laneTile home) 0)
  else s1.setLane l { s1.lane l with doneAt := max (s1.lane l).doneAt (s.now + 2996) }

/-- Flit `k` of a message as it is read from the tile store of lane `l`. -/
def State.optFlit (s : State) (l : Nat) (m : OptMsg) (k : Nat) : OptFlit :=
  { lane := m.plane, entry := m.pent, index := m.off + k,
    data := BitVec.ofNat 1024 (s.storeNat (laneTile l) (m.src + 128 * k) 128), topv := BitVec.ofNat 16 s.topver,
    sched := m.plan + slotAfter k + 2996 }

/-- Reading a flit's bytes corrects what it meets (R367, R373). -/
def State.readFlit (s : State) (l : Nat) (m : OptMsg) (k : Nat) : State :=
  s.eccUse (2 * laneTile l) (laneTile l) 0 [(m.src + 128 * k, 128)]

/-- Replace a message of a lane, or drop it once its flits have all left. -/
def Lane.put (x : Lane) (m : OptMsg) : Lane :=
  { x with msgs := if m.next < m.n then x.msgs.map fun o => if o.id = m.id then m else o
                   else x.msgs.filter fun o => decide (o.id ≠ m.id) }

/-- The first timed message of a lane is due to go on: its next departure is scheduled. -/
def State.startLane (s : State) (l : Nat) : State :=
  let x := s.lane l
  match x.msgs.find? fun m => !m.demand with
  | none => s
  | some m =>
    let at_ := max (max s.now x.slotAt) (m.depart m.next)
    let m1 := { m with base := m.next, first := at_, stalled := false }
    (s.setLane l (x.put m1)).post at_ rankSample (.opticalFlitDeparture (laneTile l) m.id m.next)

/-- Put a flit that has reached its slot on lane `b.lane` into the port's retry buffer; a buffer that fills late loses the port (R406). -/
def State.buffer (s : State) (b : HeldFlit) : State :=
  let p := b.lane / 8
  let x := s.port p
  let s1 := s.setPort p { x with buffer := x.buffer ++ [b] }
  if x.buffer.length + 1 = retryMax ∧ (x.pause.map fun b => decide (b + x.bound < s.now)) = some true then
    s1.post s.now rankAfter (.portLost p)
  else s1

/-- A flit reaches its departure slot: it leaves, or a pause puts it into the retry buffer. -/
def State.flitOut (s0 : State) (l : Nat) (m : OptMsg) (k : Nat) : State :=
  let s := s0.readFlit l m k
  if s.now < (s.lane l).blockTo then s.buffer { lane := l, home := l, pmod := m.pmod, demand := false, flit := s.optFlit l m k }
  else s.leave l l m.pmod false (s.optFlit l m k)

/-- The mark of the departures from a lane's retry buffer. -/
def bufferMark : Nat := 2 ^ 33

/-- The first buffered flit of lane `l` leaves, and the next one in the next slot; a new pause keeps them (R406). -/
def State.bufferDeparture (s : State) (l k : Nat) : State :=
  let p := s.port (l / 8)
  let mine (b : HeldFlit) : Bool := decide (b.lane = l) && !b.demand
  match p.buffer.find? mine with
  | none => s
  | some b =>
    if s.now < (s.lane l).blockTo then s
    else
      let rest := p.buffer.erase b
      let s1 := (s.setPort (l / 8) { p with buffer := rest }).leave l b.home b.pmod false b.flit
      if rest.any mine then
        s1.post (s.now + slotAfter (k + 1) - slotAfter k) rankSample (.opticalFlitDeparture (laneTile l) bufferMark (k + 1))
      else s1

/-- The timed departure of flit `k` of message `id`. -/
def State.timedDeparture (s : State) (l id k : Nat) : State :=
  let x := s.lane l
  match x.msgs.find? fun m => decide (m.id = id) with
  | none => s
  | some m =>
    if m.stalled ∨ m.next ≠ k then s
    else if s.now < x.slotAt then s.startLane l
    else if s.now < x.blockTo ∧ retryMax ≤ (s.port (l / 8)).buffer.length then
      s.setLane l (x.put { m with stalled := true })
    else
      let s1 := s.flitOut l m k
      let m1 := { m with next := k + 1 }
      if k + 1 < m.n then
        (s1.setLane l ((s1.lane l).put m1)).post (m1.depart (k + 1)) rankSample (.opticalFlitDeparture (laneTile l) id (k + 1))
      else
        let y := (s1.lane l).put m1
        (s1.setLane l { y with slotAt := max y.slotAt (s.now + 7) }).startLane l

/-! ## Demand circuits (R402-R404) -/

/-- The cycles and flits of an interval. -/
def intervalLen : Nat := 2400
def intervalFlits : Nat := 351

/-- The place in the domain of a module's port. -/
def State.domainPort (s : State) (m p : Nat) : Option Nat := s.domain.idxOf? (m, p)

/-- A port's demand messages, in queue order: by issue cycle, then lane. -/
def State.portQueue (s : State) (p : Nat) : List (Nat × OptMsg) :=
  let all := (List.range 8).flatMap fun w => ((s.lane (8 * p + w)).msgs.filter fun m => m.demand).map fun m => (8 * p + w, m)
  let rec put (e : Nat × OptMsg) : List (Nat × OptMsg) → List (Nat × OptMsg)
    | [] => [e]
    | x :: r => if e.2.issue < x.2.issue then e :: x :: r else x :: put e r
  all.foldl (fun l e => put e l) []

/-- The queue of a port towards a port of the domain. -/
def State.queueTo (s : State) (p d : Nat) : List (Nat × OptMsg) :=
  (s.portQueue p).filter fun e => decide (s.domainPort e.2.pmod (e.2.plane / 8) = some d)

/-- The demand flits that the retry buffer of a port holds for a port of the domain. -/
def State.heldTo (s : State) (p d : Nat) : List HeldFlit :=
  (s.port p).buffer.filter fun b => b.demand && decide (s.domainPort b.pmod (b.flit.lane / 8) = some d)

/-- The depth in KiB of a queue and the flits buffered before it, a part of one counted as one (R402). -/
def queueDepth (q : List (Nat × OptMsg)) (held : Nat) : Nat := min 65535 ((q.foldl (fun n e => n + (e.2.n - e.2.next)) held + 7) / 8)

/-- The first flit of a port's queue towards `d` is read at its slot on lane `l`: the flit, and what reading it leaves. -/
def State.takeDemand (s0 : State) (l d : Nat) : Option (HeldFlit × State) :=
  match s0.queueTo (l / 8) d with
  | [] => none
  | (home, m) :: _ =>
    let s := s0.readFlit home m m.next
    some ({ lane := l, home := home, pmod := m.pmod, demand := true, flit := s.optFlit home m m.next },
      s.setLane home ((s.lane home).put { m with next := m.next + 1 }))

/-- A demand flit's slot on the circuit of lane `l` to port `d` (R402, R406): what the retry buffer holds for `d` leaves first, then the
port's queue; a lane that pauses reads its flit into the buffer, and one that sends timed flits passes the slot. -/
def State.demandDeparture (s0 : State) (l d j : Nat) : State :=
  let s := if j + 1 < intervalFlits then
      s0.post (s0.intervalAt + 240 + slotAfter (j + 1)) rankSample (.opticalFlitDeparture (laneTile l) (2 ^ 32 + d) (j + 1)) else s0
  let x := s.lane l
  let p := s.port (l / 8)
  if s.now < x.slotAt ∨ x.msgs.any fun m => !m.demand then s
  else if s.now < x.blockTo then
    if p.buffer.length < retryMax then
      match s.takeDemand l d with
      | none => s
      | some (b, z) => z.buffer b
    else s
  else match s.heldTo (l / 8) d with
    | b :: _ => (s.setPort (l / 8) { p with buffer := p.buffer.erase b }).leave l b.home b.pmod true b.flit
    | [] => match s.takeDemand l d with
      | none => s
      | some (b, z) => z.leave l b.home b.pmod true b.flit

/-- OPTICAL_FLIT_DEPARTURE: of a timed message, from the retry buffer (mark 2^33), or (from mark 2^32 on) in a slot of a demand circuit. -/
def execOpticalFlitDeparture (tile msg k : Nat) (s : State) : Host.Outcome State Fault Refusal :=
  match portLaneOf tile with
  | none => .fault .noSuchUnit
  | some l => .next (
      if (s.port (l / 8)).lost then s
      else if msg < 2 ^ 32 then s.timedDeparture l msg k
      else if msg = bufferMark then s.bufferDeparture l k
      else if Table.get 0 s.circuits l = msg - 2 ^ 32 + 1 then s.demandDeparture l (msg - 2 ^ 32) k
      else s)

/-- OPTICAL_FLIT_WRITE (R400, R409): the flit is dropped as stale, or written and counted. -/
def execOpticalFlitWrite (f : OptFlit) (s : State) : Host.Outcome State Fault Refusal :=
  if 128 ≤ f.lane ∨ 64 ≤ f.entry then .fault .noSuchUnit
  else .next (
    let t := laneTile f.lane
    if f.topv.toNat ≠ s.topver then s.onOpt t f.entry fun c => { c with stale := c.stale + 1, topv := f.topv }
    else
      (s.bankWrite t (atAddr (optBase (s.optEntry t f.entry) + 128 * f.index) (toBytes f.data.toNat 128))).onOpt t f.entry fun c =>
        { c with arr := c.arr + 1, lastAt := s.now, lastN := (if c.lastAt = s.now then c.lastN else 0) + 1,
                 late := c.late || decide (f.sched < s.now) })

/-- OPTICAL_ACK: a demand flit of the tile's messages is acknowledged (R401). -/
def execOpticalAck (tile _msg : Nat) (s : State) : Host.Outcome State Fault Refusal :=
  match portLaneOf tile with
  | none => .fault .noSuchUnit
  | some l =>
    let x := s.lane l
    .next (s.setLane l { x with unacked := x.unacked - 1, doneAt := max x.doneAt s.now })

/-- Everything a core sent on its lane is written or acknowledged, on an earlier cycle (R401). -/
def State.opticsDone (s : State) (c : Nat) : Bool :=
  match portLaneOf (tileOf c) with
  | none => true
  | some l =>
    let x := s.lane l
    (s.port (l / 8)).lost || (x.msgs.isEmpty && decide (x.unacked = 0) && decide (x.doneAt < s.now) &&
      !((s.port (l / 8)).buffer.any fun b => decide (b.home = l)))

/-- The matching engine (R403) for one wavelength: the circuits (source, destination) and the depths left. -/
def matchRound (n r : Nat) (fs fd : List Nat) (q : List (List Nat)) :
    List (Nat × Nat) × List Nat × List Nat × List (List Nat) :=
  let at_ (q : List (List Nat)) (s d : Nat) : Nat := (q.getD s []).getD d 0
  let rank (a : Nat) : Nat := (a + n - r % n) % n
  let best (l : List Nat) (better : Nat → Nat → Bool) : Option Nat :=
    l.foldl (fun o a => match o with
      | none => some a
      | some b => if better a b then some a else some b) none
  let grant := fd.map fun d => (d, best (fs.filter fun s => decide (0 < at_ q s d)) fun a b => decide (rank a < rank b))
  fs.foldl (fun acc s =>
    let (cs, fs1, fd1, q1) := acc
    let mine := (grant.filter fun g => decide (g.2 = some s) && fd1.contains g.1).map Prod.fst
    match best mine fun a b => decide (at_ q1 s b < at_ q1 s a) || (decide (at_ q1 s a = at_ q1 s b) && decide (rank a < rank b)) with
    | none => acc
    | some d =>
      let row := (q1.getD s []).mapIdx fun j v => if j = d then v - 44 else v
      (cs ++ [(s, d)], fs1.filter fun x => decide (x ≠ s), fd1.filter fun x => decide (x ≠ d), q1.set s row)) ([], fs, fd, q)

/-- Four rounds for a wavelength. -/
def matchWave (n r : Nat) : Nat → List Nat → List Nat → List (List Nat) → List (Nat × Nat) × List (List Nat)
  | 0, _, _, q => ([], q)
  | k + 1, fs, fd, q =>
    let (cs, fs1, fd1, q1) := matchRound n r fs fd q
    let (cs1, q2) := matchWave n r k fs1 fd1 q1
    (cs ++ cs1, q2)

/-- A lane of this module is scheduled: its table holds a scheduled entry, and its tile is in a timed phase. -/
def State.laneScheduled (s : State) (l : Nat) : Bool :=
  let t := laneTile l
  ((s.tile t).opts.any fun e => decide (optKind e.2.entry.toNat = 1) || decide (optKind e.2.entry.toNat = 2)) &&
    !(s.core (2 * t)).windowed

/-- A wavelength is free at a port of the domain. -/
def State.waveFree (s : State) (w a : Nat) : Bool :=
  match s.domain[a]? with
  | none => false
  | some (m, p) =>
    !controlLane (8 * p + w) && (if m = s.modid then !s.laneScheduled (8 * p + w) && !(s.port p).lost
      else !Config.scheduled a w && !s.portSeen m p)

/-- The circuits of an interval: (wavelength, source, destination), from reports `q` under rank `r`. -/
def State.assign (s : State) (r : Nat) (q : List (List Nat)) : List (Nat × Nat × Nat) :=
  let n := s.domain.length
  let ports := List.range n
  ((List.range 8).foldl (fun acc w =>
    let free := ports.filter (s.waveFree w)
    let (cs, q1) := matchWave n r 4 free free acc.2
    (acc.1 ++ cs.map fun c => (w, c.1, c.2), q1)) ([], q)).1

/-- This module's rows of a report. -/
def State.report (s : State) : List (List Nat) :=
  s.domain.map fun e =>
    if e.1 = s.modid then (List.range s.domain.length).map fun d => queueDepth (s.queueTo e.2 d) (s.heldTo e.2 d).length else []

/-- DEMAND_INTERVAL: interval i begins under the assignment of the reports of interval i - 2: `depths`, with this module's own
rows in place. This interval's report is made. -/
def execDemandInterval (depths : List (List Nat)) (s : State) : Host.Outcome State Fault Refusal :=
  .next (
    let n := s.domain.length
    if n = 0 then s
    else
      let own := if s.reports.length = 2 then s.reports.headD [] else []
      let q := (List.range n).map fun a =>
        if (s.domain[a]?.map Prod.fst) = some s.modid then own.getD a [] else depths.getD a []
      let cs := if s.reports.length = 2 then s.assign ((s.interval - 2) % n) q else []
      let mine := cs.filterMap fun c =>
        match s.domain[c.2.1]? with
        | some (m, p) => if m = s.modid then some (8 * p + c.1, c.2.2) else none
        | none => none
      let s1 := { s with
        interval := s.interval + 1, intervalAt := s.now,
        circuits := mine.foldl (fun (t : Table Nat) (c : Nat × Nat) => Table.put t c.1 (c.2 + 1)) [],
        reports := (s.reports ++ [s.report]).drop (s.reports.length - 1) }
      let s2 := mine.foldl (fun z c =>
        z.post (s.now + 240) rankSample (.opticalFlitDeparture (laneTile c.1) (2 ^ 32 + c.2) 0)) s1
      let next := (List.range n).map fun a => (List.range n).map fun d => Config.depth s2.free a d
      s2.draw.post (s.now + intervalLen) rankRelease (.demandInterval next))

/-! ## Gaps, pauses and lost ports (R405-R407) -/

/-- A hint declares a gap in a phase (R199). -/
def Hint.covers (h : Hint) (phase : Nat) : Bool :=
  decide (h.phase = phase) || (decide (h.period ≠ 0) && decide (h.phase ≤ phase) && decide ((phase - h.phase) % h.period = 0))

/-- The first cycle and the end of the longest gap that a launch header's hints give the partition of a lane's tile in its present phase,
from the release tick on: a core of POS 0 observes that tick itself (R199). -/
def State.hintGap (s : State) (t : Nat) : Option (Nat × Nat) :=
  let p := s.partOf (2 * t)
  match p.cores.find? fun c => decide ((s.core c).pos = 0) with
  | none => none
  | some c =>
    let x := s.core c
    match p.hints.filter fun h => h.covers x.phase with
    | [] => none
    | hs => some (x.relAt, x.relAt + 64 * hs.foldl (fun n h => max n h.gap) 0)

/-- The collective engine may have declared a gap on a lane, while a group collective is under way: the spec does not give its schedule
(R405; log entry 21). -/
def State.collectiveGap (s : State) : Bool :=
  (s.colls.any fun e => e.2.group && e.2.aborted.isNone) && (Config.freeBits s.free).getLsbD 0

/-- No lane of `ls` transmits before `e`. -/
def State.blockLanes (s : State) (ls : List Nat) (e : Nat) : State :=
  ls.foldl (fun z l => z.setLane l { z.lane l with blockTo := max (z.lane l).blockTo e }) s

/-- The lanes of a port. -/
def portLanes (port : Nat) : List Nat := (List.range 8).map (8 * port + ·)

/-- A port's eight wavelengths retrain together, in less than 114,000 cycles: between jobs, or as a lost port is restored (R405). -/
def State.retrainPort (s : State) (port : Nat) : State :=
  let p := s.port port
  if p.lost ∨ s.parts.all fun e => decide (e.2.status = .none) then
    let e := s.now + 1 + Config.opticalDelay s.free % 114000
    let s1 := (s.draw.setPort port (if p.lost then { p with lost := false, pause := none, buffer := [] } else p)).blockLanes (portLanes port) e
    ({ s1 with lostPorts := s1.lostPorts.filter fun n => decide (n.1 ≠ s.modid ∨ n.2.1 ≠ port) }).post e rankStream (.pauseEnd port)
  else s

/-- LANE_RETRAINING starts at the first cycle of a gap with 96,000 cycles left, and takes at most that long; a number of 128 and more is
128 + port: all of the port's wavelengths (R405). -/
def execLaneRetraining (lane : Nat) (s : State) : Host.Outcome State Fault Refusal :=
  if 144 ≤ lane then .fault .noSuchUnit
  else .next (
    if 128 ≤ lane then s.retrainPort (lane - 128)
    else
      let x := s.lane lane
      let own := decide (x.gapFrom = s.now) && decide (s.now + 96000 ≤ x.gapTo + 1)
      let hint := match s.hintGap (laneTile lane) with
        | some (a, b) => decide (a = s.now) && decide (s.now + 96000 ≤ b)
        | none => false
      if (own || hint || s.collectiveGap) ∧ x.msgs.isEmpty ∧ x.blockTo ≤ s.now then
        let e := s.now + 1 + Config.opticalDelay s.free % 96000
        (s.draw.setLane lane { x with blockTo := e }).post e rankStream (.pauseEnd (lane / 8))
      else s)

/-- The checks of a paused port against its bound (R406). -/
def State.checkBound (s : State) (port : Nat) : State :=
  match (s.port port).pause with
  | none => s
  | some b => (s.post (max s.now (b + (s.port port).bound)) rankAfter (.portLost port)).post (max s.now (b + 2 * (s.port port).bound))
      rankAfter (.portLost port)

/-- A pause of `length` cycles of some lanes of a port; one that meets another prolongs it. -/
def State.pauseLanes (s : State) (port : Nat) (ls : List Nat) (length : Nat) : State :=
  let p := s.port port
  if p.lost then s
  else
    let s1 := (s.blockLanes ls (s.now + length)).setPort port { p with pause := some (p.pause.getD s.now) }
    (s1.post (s.now + length) rankStream (.pauseEnd port)).checkBound port

/-- PAUSE: no lane of the port transmits for `length` cycles (R406). A number of 16 and more is 16 + lane: that lane alone pauses; one of
144 and more is 144 + port: firmware makes `length` the port's pause bound. -/
def execPause (port length : Nat) (s : State) : Host.Outcome State Fault Refusal :=
  if 160 ≤ port then .fault .noSuchUnit
  else .next (
    if port < 16 then s.pauseLanes port (portLanes port) length
    else if port < 144 then s.pauseLanes ((port - 16) / 8) [port - 16] length
    else (s.setPort (port - 144) { s.port (port - 144) with bound := length }).checkBound (port - 144))

/-- The buffered flits of a lane leave first, one per slot from now; then the rest (R406). Those of demand circuits leave in the slots of
circuits to their ports (R402, log entry 21). -/
def State.resumeLane (s : State) (l : Nat) : State :=
  if s.agenda.any fun v => match v.ev with
      | .opticalFlitDeparture t m _ => decide (t = laneTile l) && decide (m = bufferMark)
      | _ => false then s
  else
    let n := ((s.port (l / 8)).buffer.filter fun b => decide (b.lane = l) && !b.demand).length
    let s1 := if n = 0 then s else s.post s.now rankSample (.opticalFlitDeparture (laneTile l) bufferMark 0)
    let x := s1.lane l
    let s2 := s1.setLane l { x with slotAt := max x.slotAt (s.now + slotAfter n) }
    match x.msgs.find? fun m => !m.demand with
    | some m => if m.stalled then s2.startLane l else s2
    | none => s2

/-- PAUSE_END: the lanes of the port that can transmit again go on. -/
def execPauseEnd (port : Nat) (s : State) : Host.Outcome State Fault Refusal :=
  if 16 ≤ port then .fault .noSuchUnit
  else .next (
    let p := s.port port
    if p.lost then s
    else
      let ready := (List.range 8).filter fun w => decide ((s.lane (8 * port + w)).blockTo ≤ s.now)
      let s1 := ready.foldl (fun z w => z.resumeLane (8 * port + w)) s
      if ready.length = 8 then s1.setPort port { s1.port port with pause := none } else s1)

/-- The peer that an entry's rank and logical lane name: through the job map, PMOD and PLANE; a rank that the map does not hold is no
module, and a lane that it does not hold is itself (R398, log entry 21). -/
def State.peerOf (s : State) (name : Nat) : Nat :=
  let pmod := match Table.get 0 s.jobRanks (name / 2 ^ 7) with
    | 0 => 0x3FFFF
    | m + 1 => m % 2 ^ 18
  let plane := match Table.get 0 s.jobPlanes name with
    | 0 => name % 2 ^ 7
    | l + 1 => l % 2 ^ 7
  pmod * 2 ^ 7 + plane

/-- An entry with its peer and the topology version of its table. -/
def optResolved (e peer topv : Nat) : BitVec 128 := BitVec.ofNat 128 (fld e 0 87 + peer % 2 ^ 25 * 2 ^ 87 + topv % 2 ^ 16 * 2 ^ 112)

/-- The standby entry that the command processor writes for a swap (R398, R407, R408): the peer that the job map names, with TOPV =
TOPVER + 1; where a port on the way is lost, it is routed around, to a free peer (log entry 3). -/
def State.standbyFor (s : State) (l name : Nat) (e : BitVec 128) : BitVec 128 :=
  let peer := s.peerOf name
  let gone := s.lostPorts.any fun p =>
    (decide (p.1 = peer / 2 ^ 7) && decide (p.2.1 = peer % 2 ^ 7 / 8)) || (decide (p.1 = s.modid) && decide (p.2.1 = l / 8))
  optResolved e.toNat (if gone then (Config.freeBits s.free).toNat else peer) (s.topver + 1)

/-- Firmware writes every standby table and arms a swap for a later group lock (R408). -/
def State.armSwap (s : State) : State :=
  let s1 := (List.range 128).foldl (fun z l =>
    (z.tile (laneTile l)).opts.foldl (fun y e =>
      y.onOpt (laneTile l) e.1 fun c => { c with standby := s.standbyFor l c.name c.entry }) z) s
  { s1.draw with armed := some (Config.opticalDelay s1.free) }.draw

/-- The optical state of the lanes of some tiles begins anew: nothing queued, buffered or awaited (R364, R366). -/
def Lane.discard (x : Lane) : Lane := { x with msgs := [], freeAt := 0, slotAt := 0, unacked := 0, doneAt := 0 }

/-- Retry buffers drop the flits that some tiles sent. -/
def State.dropHeld (s : State) (ts : List Nat) : State :=
  { s with ports := Table.mapped Port.reset (fun _ p => { p with buffer := p.buffer.filter fun b => !ts.contains (laneTile b.home) }) s.ports }

/-- The swap, at the release of the group lock for which it is armed (R408): the standby tables become active, TOPVER rises,
and what a lost port's buffer held is discarded. -/
def State.swapTables (s : State) : State :=
  match s.armed with
  | none => s
  | some (k + 1) => { s with armed := some k }
  | some 0 =>
    let s1 := (List.range 128).foldl (fun z l =>
      (z.tile (laneTile l)).opts.foldl (fun y e => y.onOpt (laneTile l) e.1 fun c => { c with entry := c.standby }) z) s
    let s2 := (List.range 16).foldl (fun z p => if (z.port p).lost then z.setPort p { z.port p with buffer := [] } else z) s1
    { s2.abortGroup 1 with armed := none, topver := (s.topver + 1) % 2 ^ 16 }

/-- The notice of a port that another module of the time group has lost: group collectives abort, and firmware arms a swap (R407). -/
def State.lossNotice (s : State) (m p : Nat) : State :=
  if m / 32 = s.modid / 32 ∧ m ≠ s.modid ∧ !s.portSeen m p then
    (({ s with lostPorts := s.lostPorts ++ [(m, p, s.now)] } : State).abortGroup 2).armSwap
  else s

/-- PORT_LOST (R406, R407): at the start of the pause + PB with a full buffer, on a later cycle that fills it, or at start +
2 PB. Its messages count as written, group collectives abort, the notice goes out, and firmware arms a swap. A number of 16 and more
is 16 × (module + 1) + port: the notice that reaches this module of a port that another has lost. -/
def execPortLost (port : Nat) (s : State) : Host.Outcome State Fault Refusal :=
  if 16 ≤ port then .next (s.lossNotice (port / 16 - 1) (port % 16))
  else .next (
    let p := s.port port
    match p.pause with
    | none => s
    | some b =>
      if p.lost ∨ s.now < b + p.bound ∨ (s.now < b + 2 * p.bound ∧ p.buffer.length < retryMax) then s
      else
        let s1 := s.setPort port { p with lost := true }
        let s2 := (List.range 8).foldl (fun z w =>
          let l := 8 * port + w
          z.setLane l { z.lane l with msgs := [], unacked := 0, doneAt := s.now }) s1
        let s3 := { s2 with lostPorts := s2.lostPorts ++ [(s.modid, port, s.now + Config.opticalDelay s2.free % 3201)] }.draw
        (s3.abortGroup 2).armSwap)

/-! ## Drift (R410, R411) -/

/-- DRIFT_MEASUREMENT: firmware posts the pending correction. -/
def execDriftMeasurement (drift : BitVec 16) (s : State) : Host.Outcome State Fault Refusal := .next { s with drift := drift }

/-- A core that sleeps to a tick wakes on the cycle that has it now: the first one whose tick is no earlier, where the correction
leaves its tick out (R188; log entry 44). -/
def State.rewake (s : State) (c : Nat) : State :=
  let x := s.core c
  match x.sleepTo with
  | none => s
  | some t =>
    if x.due ≤ s.now ∨ x.status ≠ .running then s
    else
      let wake := max (s.now + 1) ((t : Int) - s.tickOff - s.adj).toNat
      let old := ((t : Int) - s.tickOff).toNat
      let s1 := s.onCore c fun y => { y with due := if x.due = old then wake else max x.due wake }
      let s2 := s1.dropEvents fun v => match v.ev with
        | .bundleIssue m _ none => decide (m = c)
        | _ => false
      if x.waits.isEmpty then s2.post ((s2.core c).due + s2.nextWait c) rankIssue (.bundleIssue c x.gen none)
      else s2.post (s.now + 1) rankIssue (.bundleIssue c x.gen none)

/-- The correction at a group lock's release of a module that TADJ has armed: TICK steps from the next cycle, and DRIFT with it. -/
def State.correctDrift (s : State) : State :=
  if !s.tadj then s
  else
    let c := min (max s.drift.toInt (-8)) 8
    let s1 := { s with tickOff := s.tickOff + s.adj, adj := c, adjAt := s.now, tadj := false }
    (s1.cores.foldl (fun z e => z.rewake e.1) s1).post (s.now + 1) rankRelease (.driftMeasurement (s.drift - BitVec.ofInt 16 c))

/-- TADJ arms the module in a group program. -/
def execTadj (s : State) : Host.Outcome State Fault Refusal :=
  .next (if (s.partOf s.latch.core).hdr.gcount = 0 then s else { s with tadj := true })

/-! ## Optical instructions (R412-R417) -/

/-- The lane of the issuing tile, where it is a port tile. -/
def State.myLane (s : State) : Nat := (portLaneOf s.here).getD 0

/-- The 0x14 of OSEND, ORECV and OGAP. -/
def State.noLane (s : State) (och : Option Nat) : Option TrapInfo :=
  match portLaneOf s.here with
  | none => s.noEngine false
  | some l => s.noEngine (!controlLane l && (match och with
      | none => true
      | some o => decide (o = l)))

/-- The entry that a form names. -/
def optNamed (v : Word) : Nat := fld v.toNat 24 8

def State.optMine (s : State) (v : Word) : Nat := s.optEntry s.here (optNamed v)

/-- The 0x01 of an entry whose KIND does not suit; a tile without a table has none to name. -/
def State.optIllegal (s : State) (v : Word) (a b : Nat) : Bool :=
  (portLaneOf s.here).isSome && (decide (64 ≤ optNamed v) || !(decide (optKind (s.optMine v) = a) || decide (optKind (s.optMine v) = b)))

def optFlits (v : Word) (e : Nat) : Nat := if fld v.toNat 32 16 = 0 then optLen e else fld v.toNat 32 16

/-- A trap of Table 21.3. -/
def optTrap (cause t0 t1 t2 : Nat) : Option TrapInfo := some (trapInfo cause t0 t1 t2)

def laneEntry (l e : Nat) : Nat := l + e % 64 * 2 ^ 8

def State.osendCause (s : State) (och : Nat) (v : Word) : Option TrapInfo :=
  let e := s.optMine v
  let n := optFlits v e
  let src := fld v.toNat 0 24
  firstCause [if s.optIllegal v 1 3 then some s.illegal else none, s.exchangeForm, s.noLane (some och),
    if optLen e < fld v.toNat 48 16 + n then some (lenFault s.me.regions src) else none, sourceFault s.me.regions src n,
    if s.portSeen s.modid (och / 8) then optTrap 0x22 (laneEntry och (optNamed v)) (och / 8) (optPmod e) else none]

/-- Queue a message of core `c` on its lane, at the present cycle (R399, R402, R413). -/
def State.osendNow (s : State) (c och : Nat) (v : Word) : State :=
  let t := tileOf c
  let e := s.optEntry t (optNamed v)
  let n := optFlits v e
  let x := s.lane och
  let demand := decide (optKind e = 3) || (s.core c).windowed
  let first := max (s.now + 4) x.freeAt
  let m : OptMsg :=
    { id := x.next, issue := s.now, pmod := optPmod e, plane := optPlane e, pent := optPent e, src := fld v.toNat 0 24,
      off := fld v.toNat 48 16, n := n, next := 0, plan := first, base := 0, first := first, demand := demand, stalled := false }
  let idle := !(x.msgs.any fun o => !o.demand)
  let s1 := s.onOpt t (optNamed v) fun o => { o with sent := o.sent + n }
  let s2 := s1.setLane och { x with
    msgs := if n = 0 then x.msgs else x.msgs ++ [m], next := x.next + 1, gapTo := if x.blockTo ≤ s.now then 0 else x.gapTo,
    freeAt := if demand then x.freeAt else first + slotAfter (n - 1) + 7 }
  if idle ∧ !demand ∧ 0 < n then s2.startLane och else s2

/-- OSEND. -/
def execOsend (och : BitVec 7) (xa : BitVec 4) (bound : BitVec 20) (s : State) : Host.Outcome State Fault Refusal :=
  s.attempt (s.osendCause och.toNat (s.x xa)) fun s =>
    if 16 ≤ (s.lane och.toNat).msgs.length then s.waitFor bound 0 (.osend och.toNat (s.x xa))
    else s.osendNow s.latch.core och.toNat (s.x xa)

/-- A waiting OSEND executes once its lane has room. -/
def State.pollOsend (s : State) (c och : Nat) (v : Word) : Option State :=
  if (s.lane och).msgs.length < 16 then some (s.osendNow c och v) else none

/-- The causes of ORECV (R414). A need above LEN has no effective address: TINFO0 of its 0x0A is the need (DESIGN CHOICE, log entry 52). -/
def State.orecvCause (s : State) (och : Nat) (v : Word) : Option TrapInfo :=
  let e := s.optMine v
  let o := s.opt s.here (optNamed v)
  let need := optFlits v e
  let le := laneEntry och (optNamed v)
  firstCause [if s.optIllegal v 2 4 then some s.illegal else none, s.exchangeForm, s.noLane (some och),
    if optLen e < need then some (lenFault s.me.regions need) else none,
    if s.portSeen (optPmod e) (optPlane e / 8) then optTrap 0x22 le (optPlane e / 8 + 16) (optPmod e) else none,
    if o.stale ≠ 0 then optTrap 0x20 s.topver o.topv.toNat (le + 2 ^ 16) else none,
    if o.arrived s.now < need ∧ !s.me.windowed then
      optTrap 0x21 le (o.arrived s.now % 2 ^ 16 + need * 2 ^ 16) (optPmod e) else none]

/-- ORECV. -/
def execOrecv (och : BitVec 7) (xa : BitVec 4) (bound : BitVec 20) (s : State) : Host.Outcome State Fault Refusal :=
  s.attempt (s.orecvCause och.toNat (s.x xa)) fun s =>
    let need := optFlits (s.x xa) (s.optMine (s.x xa))
    if (s.opt s.here (optNamed (s.x xa))).arrived s.now < need then
      s.waitFor bound 0 (.orecv (och.toNat + optNamed (s.x xa) * 2 ^ 7) need)
    else s

/-- A waiting ORECV (its lane and entry packed as the wait holds them) has what it needs. -/
def State.pollOrecv (s : State) (c och need : Nat) : Bool :=
  decide (need ≤ (s.opt (tileOf c) (och / 2 ^ 7)).arrived s.now)

/-- TINFO1 of an ORECV whose bound is exceeded: the peer lane's port tile and PMOD (R412). -/
def State.orecvProducer (s : State) (c och : Nat) : Nat :=
  let e := s.optEntry (tileOf c) (och / 2 ^ 7)
  laneTile (optPlane e) * 2 ^ 32 + optPmod e

/-- OGAP. -/
def execOgap (gap : BitVec 20) (s : State) : Host.Outcome State Fault Refusal :=
  s.attempt (firstCause [s.exchangeForm, s.noLane none]) fun s =>
    let x := s.lane s.myLane
    s.setLane s.myLane { x with gapFrom := s.now + 1, gapTo := if gap = 0 then 0 else s.now + 64 * gap.toNat }

/-- OVER: the bits of TINFO2 that name a lane and an entry are free (log entry 3), for OVER names neither. -/
def State.overCause (s : State) (v : Word) : Option TrapInfo :=
  if fld v.toNat 0 16 = s.topver then none
  else optTrap 0x20 s.topver (fld v.toNat 0 16) ((Config.freeBits s.free).toNat % 2 ^ 14)

def execOver (a : BitVec 4) (s : State) : Host.Outcome State Fault Refusal :=
  .next (match s.exchangeForm with
    | some t => s.trapNow t
    | none =>
      match s.overCause (s.x a) with
      | some t => s.draw.trapNow t
      | none => s)

/-! ## The loss of a module (R418, R421-R423) -/

/-- The record of kind 7; its other bits are free (log entry 3). -/
def State.lossRecord (s : State) (q modid reason : Nat) : State :=
  s.freeRecord q (2 ^ 34 - 2 ^ 32 + (2 ^ 26 - 1)) (reason * 2 ^ 32 + modid * 2 ^ 8 + 7)

/-- The group partitions of this module. -/
def State.groupParts (s : State) : List Nat := (s.parts.filter fun e => decide (e.2.hdr.gcount ≠ 0)).map Prod.fst

/-- Stop every core of a partition. -/
def State.stopPart (s : State) (pid : Nat) : State := (s.part pid).cores.foldl State.stopCore s

/-- A checkpoint is between its first and its last collective (R420): one is under way, or its task has done some and, as a free value
says, has more to do (log entry 21). -/
def State.checkpointing (s : State) : Bool :=
  (s.colls.any fun e => e.2.parts.any fun k => decide (descKind k.desc = 4)) ||
    (s.parts.any fun e => e.2.checks) && (Config.freeBits s.free).getLsbD 0

/-- The parts of this module whose jobs use a module (R422, R423). -/
def State.users (s : State) (modid : Nat) : List Nat :=
  s.groupParts.filter fun pid => (Table.get [] s.jobUses (s.part pid).hdr.gtag).contains modid

/-- The jobs of some parts end, with a record of kind 7. -/
def State.endJobs (s : State) (pids : List Nat) (modid reason : Nat) : State :=
  pids.foldl (fun z pid => (z.lossRecord (z.part pid).queue modid reason).endStopped pid) s

/-- The parts of a job resume from their save areas at `done`; one that has none ends (R422). -/
def State.resumeJobs (s : State) (pids : List Nat) (modid done : Nat) : State :=
  pids.foldl (fun z pid =>
    if (z.part pid).resumeSave.isSome then
      (z.onPart pid fun p => { p with status := .restoring }).post done rankAfter (.roundRestore pid none)
    else (z.lossRecord (z.part pid).queue modid 3).endStopped pid) s

/-- A module takes another's place in the job map. -/
def State.replaceModule (s : State) (old new : Nat) : State :=
  { s with jobRanks := s.jobRanks.map fun e => if e.2 = old + 1 then (e.1, new + 1) else e }

/-- A module of another time group is lost: the parts here of the jobs that use it stop, and learn of a spare and resume, or end; which,
and the spare, are free (R422, log entry 21). -/
def State.farLoss (s : State) (modid : Nat) : State :=
  match s.users modid with
  | [] => s
  | pids =>
    let s1 := (pids.foldl State.stopPart s).draw
    let bits := (Config.freeBits s.free).toNat
    if bits % 5 < 4 then s1.endJobs pids modid (bits % 5)
    else (((s1.replaceModule modid (bits / 5 % 2 ^ 18)).armSwap).draw).resumeJobs pids modid (s.now + Config.copyDelay s1.free)

/-- The rebuild of place `k` ends: where this module is the spare, its tier holds the lost module's protected range and parity, and its page
tables and handles are those of the lost module (R421, R422); all of it is other modules' data, and free (log entry 21). -/
def State.rebuilt (s : State) (k : Nat) : State :=
  if s.parity = some (k / 8, k % 8) then
    { s.draw with
      tier := Memory.writeAll s.tier ((Config.rebuiltBytes s.free).filter fun e => decide (e.1 < parityBase + parityShare)),
      pages := (Config.rebuiltPages s.free).foldl (fun t e => Table.set (0 : Word) t e.1 e.2) s.pages,
      handles := (Config.rebuiltHandles s.free).foldl (fun t e =>
        Table.set Handle.reset t e.1 { Handle.reset with base := e.2.1, len := e.2.2, state := .opened }) s.handles }
  else s

/-- A serving module of the time group is lost: the parts here of its jobs stop and the group's collectives abort; where the parity rules
rebuild it, the lowest spare takes its place and the parts resume from their save areas, else its jobs end with a record of kind 7
(R421-R423). -/
def State.servingLoss (s : State) (modid : Nat) : State :=
  let pids := s.users modid
  let s1 := ((pids.foldl State.stopPart s).abortGroup 2).draw
  match (s.serving.find? fun e => decide (e.2 = modid + 1)).map Prod.fst with
  | none => s1.endJobs pids modid 3
  | some k =>
    let s2 := { s1 with serving := Table.drop s1.serving k }
    let fail (reason : Nat) : State := s2.endJobs pids modid reason
    if s.now < Table.get 0 s.rebuilds (k / 8) ∨ (s.serving.filter fun e => decide (e.1 / 8 = k / 8)).length < 8 then fail 0
    else if s.guard_.isNone then fail 1
    else if s.checkpointing then fail 2
    else match s.spares with
      | [] => fail 3
      | first :: more =>
        let spare := more.foldl min first
        let done := s.now + Config.copyDelay s2.free
        let s3 := { s2.draw with
          serving := Table.set 0 s2.serving k (spare + 1), spares := s2.spares.filter fun m => decide (m ≠ spare),
          parity := if spare = s.modid then some (k / 8, k % 8) else s2.parity, rebuilds := Table.put s2.rebuilds (k / 8) done }
        (((s3.replaceModule modid spare).armSwap).post done rankRelease (.heartbeatLoss (2 ^ 18 + k))).resumeJobs pids modid done

/-- HEARTBEAT_LOSS: a module is lost: one of another time group, a spare, which is reported to the owner only, the guard, or a serving
module. A number of 2^18 and more is 2^18 + place: the rebuild of that place ends (R421-R423). -/
def execHeartbeatLoss (modid : Nat) (s : State) : Host.Outcome State Fault Refusal :=
  .next (
    if 2 ^ 18 ≤ modid then s.rebuilt (modid - 2 ^ 18)
    else if modid / 32 ≠ s.modid / 32 then s.farLoss modid
    else if s.spares.contains modid then
      { s with spares := s.spares.filter fun m => decide (m ≠ modid), lostSpares := s.lostSpares ++ [modid] }
    else if s.guard_ = some modid then { s with guard_ := none }
    else s.servingLoss modid)

/-! ## The job map (R398, R418) -/

/-- The number under which the surroundings hold what JOBMAP names. -/
def State.jobMapKey (s : State) : Nat := s.lease.owner * 2 ^ 64 + (Table.get (0 : Word) s.mgmt 0x38).toNat

/-- Firmware applies the job map that JOBMAP names (R398, R429): the first one begins its topology version at once; a later one is
resolved into the standby tables and comes with the next swap. -/
def State.applyJobMap (s : State) : State :=
  match Table.get none s.jobMaps s.jobMapKey with
  | none => s
  | some m =>
    let first := s.jobRanks.isEmpty
    let place : Option (Nat × Nat) := (m.serving.find? fun e => decide (e.2 = s.modid + 1)).map fun e => (e.1 / 8, e.1 % 8)
    let s1 := { s with
      jobRanks := m.ranks, jobPlanes := m.planes, jobUses := m.uses, serving := m.serving, guard_ := m.guard_, spares := m.spares,
      domain := m.domain, parity := place }
    let s2 := if m.domain.isEmpty ∨ s.agenda.any fun v => match v.ev with
        | .demandInterval _ => true
        | _ => false then s1 else s1.post (s.now + 1) rankRelease (.demandInterval [])
    if first then { s2 with topver := m.topver % 2 ^ 16 } else s2.armSwap

end Sys2Proof.Machine
end

