-- ==== Sys2Proof/Machine/End.lean ====
section
/-! DEFINITION. END: the pending work of a tile, the checks of the form, and the arrival it makes (08 R189, R190). -/

namespace Sys2Proof.Machine

/-- The latest write that an engine's transfer has still to make: an SGO's last beat, or what an output window holds. -/
def State.streamEnd (s : State) (t e : Nat) (x : Transfer) : Nat :=
  match x.bind with
  | .sgo => if x.done.isSome then 0 else x.start + 2 + x.desc.late + (x.beats - 1) + 4
  | .input _ _ => 0
  | .output _ _ => s.agenda.foldl (fun n v => match v.ev with
      | .windowOutputWrite t1 e1 run _ _ => if t1 = t ∧ e1 = e ∧ run = x.id then max n v.at_ else n
      | _ => n) 0

/-- The completion of the tree results to which a core has contributed (R220): none where a member has not contributed. -/
def State.treesEnd (s : State) (c : Nat) : Option Nat :=
  let p := s.partOf c
  (s.contributed c).foldl (fun acc e =>
    let root := s.treeRoot p treeFuel (tileOf c) e
    match acc, s.treeReady p treeFuel root.1 root.2 with
    | some n, some r =>
      let last := r + routeLen (s.route root.1 root.2) - 1
      let depths := if routeDown (s.route root.1 root.2) then
          (s.treeMembers p treeFuel root.1 root.2).map fun m => s.treeDepth p treeFuel m.1 m.2 else [0]
      some (max n (last + depths.foldl max 0))
    | _, _ => none) (some 0)

/-- The last accumulator write of an MGO of END's own bundle that waits behind a queued nest (R309, R310). -/
def State.waitingNest (s : State) (t : Nat) : Nat :=
  let x := (s.tile t).array
  let h := x.shadow
  let g := x.nests.foldl (fun n k => max n k.start) s.now
  if (s.latch.waits.any fun w => match w.what with
      | .nest _ _ => true
      | _ => false) && decide (Shadow.steps h ≠ 0) then
    max (g + 2) x.freeAt + Shadow.steps h * (Shadow.pair h).1 + 6 else 0

/-- The work of a core whose completion is not fixed yet (R189). Log entry 42: beside the rule's list, a sheaf reduction to which a
member has still to come, and a SEND, OSEND or quay form of END's own bundle that waits for space. -/
def State.endOpen (s : State) (c : Nat) : Bool :=
  let x := s.tile (tileOf c)
  let windowed := (s.core c).windowed
  (x.colls.any fun n => s.colls.any fun e => e.2.parts.any fun k => decide (k.core = c) && decide (k.ticket = n)) ||
    (x.outs.any fun o => decide (s.chanCore (tileOf c) o.chan = c) && o.due.isNone) ||
    (windowed && (s.contributed c).any fun e => (s.treeWritten (s.partOf c) (tileOf c) e).isNone) || (s.treesEnd c).isNone ||
    (s.latch.waits.any fun w => match w.what with
      | .send _ _ _ _ | .quay _ _ _ | .osend _ _ => true
      | _ => false) ||
    (s.mreds.any fun e => e.2.q.isNone && e.2.arrived.any fun a => decide (a.2.1 = c))

/-- d: the latest completion of a core's pending work (R189). -/
def State.endTime (s : State) (c : Nat) : Nat :=
  let t := tileOf c
  let x := s.tile t
  let streams := (s.core c).engines.foldl (fun n e => (s.engine t e).all.foldl (fun m y => max m (s.streamEnd t e y)) n) 0
  let array := if c % 2 = 0 ∧ !x.array.quiescent then x.array.lastW else 0
  let mred := s.mreds.foldl (fun n e => match e.2.q with
    | some q => if e.2.arrived.any fun a => decide (a.2.1 = c) then
        max n (q + (s.core (Table.get (0, 0, 0) e.2.arrived 0).1).pos + 199) else n
    | none => n) 0
  let frags := x.outs.foldl (fun n o => if s.chanCore t o.chan = c then max n (o.due.getD 0) else n) 0
  let quays := x.quays.foldl (fun n e => e.2.tasks.foldl (fun m k => if k.core = c then max m k.promise else m) n) 0
  [(s.core c).performs, streams, array, s.waitingNest t, mred, frags, quays, (s.treesEnd c).getD 0, s.now].foldl max 0

/-- The 0x1B of END. -/
def State.endCause (s : State) (bound : BitVec 18) : Option TrapInfo :=
  let c := s.latch.core
  if s.endOpen c then some (trapInfo 0x1B 0 0xFFFFFFFF 0)
  else if 16 * bound.toNat < s.endTime c - s.now then some (trapInfo 0x1B 0 (s.endTime c - s.now) 0)
  else none

/-- END: the bundle's end stops the issue (R190). -/
def execEndProg (bound : BitVec 18) (s : State) : Host.Outcome State Fault Refusal :=
  s.attempt (s.endCause bound) fun s => { s with latch := { s.latch with ended := true } }

end Sys2Proof.Machine
end

