-- ==== Sys2Proof/Machine/Reference.lean ====
section
/-! DEFINITION. The reference algorithms of the vector functions that are not correctly rounded (06 R150, R157-R160). -/

namespace Sys2Proof.Machine

/-- floor of a rational. -/
def floorR (q : Rat) : Int := q.num / (q.den : Int)

def absR (q : Rat) : Rat := if q < 0 then -q else q

/-- split(x): e and mi (R157). -/
def splitR (x : Rat) : Int × Nat :=
  let e := floorLog2 (absR x)
  (e, (floorR (absR x * pow2 (23 - e))).toNat)

def rcpSeed : List Nat :=
  [0xF8, 0xEA, 0xDD, 0xD2, 0xC8, 0xBF, 0xB6, 0xAE, 0xA7, 0xA1, 0x9B, 0x95, 0x90, 0x8B, 0x86, 0x82]

def rsqSeed : List Nat :=
  [0xF8, 0xEB, 0xDF, 0xD6, 0xCD, 0xC5, 0xBE, 0xB8, 0xB0, 0xA6, 0x9E, 0x97, 0x91, 0x8B, 0x86, 0x82]

/-- One step of rcp_ref's iteration. -/
def rcpStep (mq y : Nat) : Nat := y * (2 ^ 63 - mq * y / 2 ^ 62) / 2 ^ 62

/-- rcp_ref (R158). -/
def rcpRef (x : Rat) : Rat :=
  let (e, mi) := splitR x
  let mq := mi * 2 ^ 39
  let y := rcpStep mq (rcpStep mq (rcpStep mq (rcpSeed.getD (fld mi 19 4) 0 * 2 ^ 54)))
  let v := (y : Rat) * pow2 (-62 - e)
  if x < 0 then -v else v

/-- One step of rsq_ref's iteration. -/
def rsqStep (mq y : Nat) : Nat := y * (3 * 2 ^ 62 - y * y / 2 ^ 62 * mq / 2 ^ 62) / 2 ^ 63

/-- rsq_ref (R158). -/
def rsqRef (x : Rat) : Rat :=
  let (e, mi) := splitR x
  let odd := decide (e % 2 = 1)
  let mq := if odd then mi * 2 ^ 40 else mi * 2 ^ 39
  let e2 := if odd then e - 1 else e
  let j := if odd then 8 + fld mi 20 3 else fld mi 20 3
  let y := rsqStep mq (rsqStep mq (rsqStep mq (rsqSeed.getD j 0 * 2 ^ 54)))
  (y : Rat) * pow2 (-62 - e2 / 2)

/-- exp2_c[7] down to exp2_c[1], in units of 2^-32. -/
def exp2C : List Int :=
  [0x0000FFE6, 0x000A1849, 0x00576200, 0x0276556E, 0x0E35846C, 0x3D7F7BFF, 0xB17217F8]

/-- The integer nearest a rational, ties to even. -/
def nearest (q : Rat) : Int :=
  let f := floorR q
  let r := q - (f : Rat)
  if r < 1 / 2 then f else if 1 / 2 < r then f + 1 else if f % 2 = 0 then f else f + 1

/-- exp2_ref (R159). -/
def exp2Ref (t : Rat) : Rat :=
  if 128 ≤ t then pow2 128
  else if t < -160 then pow2 (-160)
  else
    let n := nearest t
    let rq := floorR ((t - (n : Rat)) * pow2 40)
    let p := exp2C.foldl (fun p c => p * rq / (2 ^ 40 : Nat) + c) 0
    let p := p * rq / (2 ^ 40 : Nat) + (2 ^ 32 : Nat)
    (p : Rat) * pow2 (n - 32)

/-- log2_d[9], [7], [5], [3], [1], in units of 2^-32. -/
def log2D : List Int := [0x5212C4F6, 0x6985D8AA, 0x93BB6287, 0xF6384EE2, 0x2E2A8ECA5]

/-- log2_ref (R159). -/
def log2Ref (x : Rat) : Rat :=
  let (e0, mi) := splitR x
  let up := decide (0xB504F3 ≤ mi)
  let k := if up then 24 else 23
  let e := if up then e0 + 1 else e0
  let sq : Int := ((mi : Int) - (2 ^ k : Nat)) * (2 ^ 40 : Nat) / ((mi : Int) + (2 ^ k : Nat))
  let z := sq * sq / (2 ^ 40 : Nat)
  let p := log2D.foldl (fun p c => p * z / (2 ^ 40 : Nat) + c) 0
  (e : Rat) + (((p * sq / (2 ^ 40 : Nat)) : Int) : Rat) / ((2 ^ 32 : Nat) : Rat)

/-- The VFACT constants LG, G1 and G2 over 2^32 (Table 6.5). -/
def lgR : Rat := (0x171547653 : Rat) / ((2 ^ 32 : Nat) : Rat)
def g1R : Rat := (0xCC42299F : Rat) / ((2 ^ 32 : Nat) : Rat)
def g2R : Rat := (0x0B727137 : Rat) / ((2 ^ 32 : Nat) : Rat)

/-- The VFACT functions (R160). -/
def sigmRef (x : Rat) : Rat := 1 / (1 + exp2Ref (-x * lgR))
def tanhRef (x : Rat) : Rat :=
  if absR x < pow2 (-12) then x
  else
    let v := 1 - 2 / (1 + exp2Ref (2 * absR x * lgR))
    if x < 0 then -v else v
def siluRef (x : Rat) : Rat := x * sigmRef x
def geluRef (x : Rat) : Rat := x / 2 * (1 + tanhRef (g1R * (x + g2R * x * x * x)))

/-! ## Special operands (Table 6.4): the value and the flags -/

def rcpV : FVal → FVal × Nat
  | .nan g => (.nan false, if g then 16 else 0)
  | .inf n => (.zero n, 0)
  | .zero n => (.inf n, 8)
  | .fin q => (FVal.ofRat (rcpRef q) false, 0)

def rsqV : FVal → FVal × Nat
  | .nan g => (.nan false, if g then 16 else 0)
  | .inf n => if n then (.nan false, 16) else (.zero false, 0)
  | .zero n => (.inf n, 8)
  | .fin q => if q < 0 then (.nan false, 16) else (FVal.ofRat (rsqRef q) false, 0)

def exp2V : FVal → FVal × Nat
  | .nan g => (.nan false, if g then 16 else 0)
  | .inf n => (if n then .zero false else .inf false, 0)
  | .zero _ => (.fin 1, 0)
  | .fin q => (FVal.ofRat (exp2Ref q) false, 0)

def log2V : FVal → FVal × Nat
  | .nan g => (.nan false, if g then 16 else 0)
  | .inf n => if n then (.nan false, 16) else (.inf false, 0)
  | .zero _ => (.inf true, 8)
  | .fin q => if q < 0 then (.nan false, 16) else (FVal.ofRat (log2Ref q) false, 0)

def tanhV : FVal → FVal × Nat
  | .nan g => (.nan false, if g then 16 else 0)
  | .inf n => (.fin (if n then -1 else 1), 0)
  | .zero n => (.zero n, 0)
  | .fin q => (FVal.ofRat (tanhRef q) false, 0)

def sigmV : FVal → FVal × Nat
  | .nan g => (.nan false, if g then 16 else 0)
  | .inf n => (if n then .zero false else .fin 1, 0)
  | .zero _ => (.fin (1 / 2), 0)
  | .fin q => (FVal.ofRat (sigmRef q) false, 0)

/-- gelu and silu share their special operands. -/
def geluV (f : Rat → Rat) : FVal → FVal × Nat
  | .nan g => (.nan false, if g then 16 else 0)
  | .inf n => (if n then .zero true else .inf false, 0)
  | .zero n => (.zero n, 0)
  | .fin q => (FVal.ofRat (f q) false, 0)

end Sys2Proof.Machine
end

