-- ==== Sys2Proof/Machine/VSlot.lean ====
section
/-! DEFINITION. The V and W slots: one table of forms over either vector file (06 R135-R160). -/

namespace Sys2Proof.Machine

/-- A V- or W-slot form in an exchange phase (R135). -/
def State.vPhase (s : State) : Option TrapInfo := if s.exchange && !s.me.hm then some s.phaseIllegal else none

/-- What a vector form delivers: its value, the flags it raises and the set of its NaN lanes. -/
structure VOut where
  val   : Vec
  flags : Nat
  nans  : Nat
  deriving DecidableEq, Repr

/-- Deliver a result at issue + `lat`, with its flags (R83) and its NaN report (R139). -/
def State.deliver (s : State) (lat : Nat) (d : BitVec 10) (o : VOut) : State :=
  ((s.writeV lat d o.val).raise lat o.flags).reportNan lat d o.nans

/-- A vector form without flags. -/
def State.vForm (s : State) (lat : Nat) (d : BitVec 10) (v : Vec) : Host.Outcome State Fault Refusal :=
  s.attempt s.vPhase fun s => s.writeV lat d v

/-- A vector form that raises flags and reports NaNs. -/
def State.vDeliver (s : State) (lat : Nat) (d : BitVec 10) (o : VOut) : Host.Outcome State Fault Refusal :=
  s.attempt s.vPhase fun s => s.deliver lat d o

/-- The lanes of a source at width `w` (R137). -/
def State.vLanes (s : State) (w : Nat) (r : BitVec 10) : List Nat := lanes (s.src r).toNat w (512 / w)

/-! ## Integer forms (R142-R145) -/

/-- A lane-by-lane result of two sources. -/
def State.int2 (s : State) (lat : Nat) (d a b : BitVec 10) (t : IType) (f : Nat → Nat → Nat) :
    Host.Outcome State Fault Refusal :=
  let w := IType.width t
  s.vForm lat d (vecOf w (List.zipWith f (s.vLanes w a) (s.vLanes w b)))

/-- A lane-by-lane result of one source. -/
def State.int1 (s : State) (lat : Nat) (d a : BitVec 10) (t : IType) (f : Nat → Nat) : Host.Outcome State Fault Refusal :=
  let w := IType.width t
  s.vForm lat d (vecOf w ((s.vLanes w a).map f))

/-- An arithmetic result fitted to its type: saturated or wrapped (R142). -/
def fitI (t : IType) (sat : Bool) (v : Int) : Nat := wrapI (IType.fmt t) (if sat then satI (IType.fmt t) v else v)

/-- The value of a lane of an integer type. -/
def laneI (t : IType) (b : Nat) : Int := decodeI (IType.fmt t) b

/-- Shifts of a lane: counts of the width and above act as the width does (R142). -/
def shlI (t : IType) (sat : Bool) (b cnt : Nat) : Nat := fitI t sat (laneI t b * (2 ^ min cnt (IType.width t) : Nat))
def shrI (t : IType) (b cnt : Nat) : Nat := b / 2 ^ min cnt (IType.width t)
def sraI (t : IType) (b cnt : Nat) : Nat :=
  zextI (sextN b (IType.width t) / (2 ^ min cnt (IType.width t - 1) : Nat)) (IType.width t)

def execVadd (d a b : BitVec 10) (t : IType) (sat : Bool) (s : State) :=
  s.int2 2 d a b t fun x y => fitI t sat (laneI t x + laneI t y)
def execVsub (d a b : BitVec 10) (t : IType) (sat : Bool) (s : State) :=
  s.int2 2 d a b t fun x y => fitI t sat (laneI t x - laneI t y)
def execVmul (d a b : BitVec 10) (t : IType) (sat : Bool) (s : State) :=
  s.int2 3 d a b t fun x y => fitI t sat (laneI t x * laneI t y)
def execVmulh (d a b : BitVec 10) (t : IType) (_sat : Bool) (s : State) :=
  s.int2 3 d a b t fun x y => zextI (laneI t x * laneI t y / (2 ^ IType.width t : Nat)) (IType.width t)
def execVmin (d a b : BitVec 10) (t : IType) (_sat : Bool) (s : State) := s.int2 2 d a b t (minFmt (IType.fmt t) false)
def execVmax (d a b : BitVec 10) (t : IType) (_sat : Bool) (s : State) := s.int2 2 d a b t (minFmt (IType.fmt t) true)
def execVand (d a b : BitVec 10) (t : IType) (_sat : Bool) (s : State) := s.int2 2 d a b t fun x y => x &&& y
def execVor (d a b : BitVec 10) (t : IType) (_sat : Bool) (s : State) := s.int2 2 d a b t fun x y => x ||| y
def execVxor (d a b : BitVec 10) (t : IType) (_sat : Bool) (s : State) := s.int2 2 d a b t fun x y => x ^^^ y
def execVshl (d a b : BitVec 10) (t : IType) (sat : Bool) (s : State) := s.int2 2 d a b t (shlI t sat)
def execVshr (d a b : BitVec 10) (t : IType) (_sat : Bool) (s : State) := s.int2 2 d a b t (shrI t)
def execVsra (d a b : BitVec 10) (t : IType) (_sat : Bool) (s : State) := s.int2 2 d a b t (sraI t)
def execVabs (d a : BitVec 10) (t : IType) (sat : Bool) (s : State) :=
  s.int1 2 d a t fun x => fitI t sat ((laneI t x).natAbs : Int)

/-- A mask lane (R143). -/
def maskLane (w : Nat) (b : Bool) : Nat := if b then 2 ^ w - 1 else 0

def State.vcmp (s : State) (d a b : BitVec 10) (t : IType) (c : Int → Int → Bool) : Host.Outcome State Fault Refusal :=
  s.int2 2 d a b t fun x y => maskLane (IType.width t) (c (laneI t x) (laneI t y))

def execVcmpEq (d a b : BitVec 10) (t : IType) (s : State) := s.vcmp d a b t fun x y => decide (x = y)
def execVcmpNe (d a b : BitVec 10) (t : IType) (s : State) := s.vcmp d a b t fun x y => decide (x ≠ y)
def execVcmpLt (d a b : BitVec 10) (t : IType) (s : State) := s.vcmp d a b t fun x y => decide (x < y)
def execVcmpLe (d a b : BitVec 10) (t : IType) (s : State) := s.vcmp d a b t fun x y => decide (x ≤ y)
def execVcmpGt (d a b : BitVec 10) (t : IType) (s : State) := s.vcmp d a b t fun x y => decide (y < x)
def execVcmpGe (d a b : BitVec 10) (t : IType) (s : State) := s.vcmp d a b t fun x y => decide (y ≤ x)
def execVcmpUo (d a b : BitVec 10) (t : IType) (s : State) := s.vcmp d a b t fun _ _ => false
def execVcmpOrd (d a b : BitVec 10) (t : IType) (s : State) := s.vcmp d a b t fun _ _ => true

/-- VSEL selects by the top bit of each lane of C (R143). -/
def execVsel (d a b c : BitVec 10) (t : IType) (s : State) : Host.Outcome State Fault Refusal :=
  let w := IType.width t
  s.vForm 2 d (vecOf w (List.zipWith (fun (ab : Nat × Nat) k => if fld k (w - 1) 1 = 1 then ab.1 else ab.2)
    ((s.vLanes w a).zip (s.vLanes w b)) (s.vLanes w c)))

/-- A byte read as signed or unsigned. -/
def byteI (signed : Bool) (v i : Nat) : Int := if signed then sextN (laneOf v 8 i) 8 else (laneOf v 8 i : Int)

/-- Lane `i` of VDOT4 (R144). -/
def dot4Lane (sa sb sat : Bool) (a b c i : Nat) : Nat :=
  let t : IType := if sa || sb then .i32 else .n32
  fitI t sat ([0, 1, 2, 3].foldl (fun s j => s + byteI sa a (4 * i + j) * byteI sb b (4 * i + j)) (laneI t (laneOf c 32 i)))

def State.dot4 (s : State) (sa sb : Bool) (d a b c : BitVec 10) (sat : Bool) : Host.Outcome State Fault Refusal :=
  s.vForm 3 d (vecOf 32 ((List.range 16).map (dot4Lane sa sb sat (s.src a).toNat (s.src b).toNat (s.src c).toNat)))

def execVdot4Ss (d a b c : BitVec 10) (sat : Bool) (s : State) := s.dot4 true true d a b c sat
def execVdot4Su (d a b c : BitVec 10) (sat : Bool) (s : State) := s.dot4 true false d a b c sat
def execVdot4Us (d a b c : BitVec 10) (sat : Bool) (s : State) := s.dot4 false true d a b c sat
def execVdot4Uu (d a b c : BitVec 10) (sat : Bool) (s : State) := s.dot4 false false d a b c sat

def execVaddi (d a : BitVec 10) (imm : BitVec 23) (t : IType) (s : State) :=
  s.int1 2 d a t fun x => fitI t false (laneI t x + s.imm23 imm)
def execVshli (d a : BitVec 10) (imm : BitVec 23) (t : IType) (s : State) :=
  s.int1 2 d a t fun x => shlI t false x imm.toNat
def execVshri (d a : BitVec 10) (imm : BitVec 23) (t : IType) (s : State) := s.int1 2 d a t fun x => shrI t x imm.toNat
def execVsrai (d a : BitVec 10) (imm : BitVec 23) (t : IType) (s : State) := s.int1 2 d a t fun x => sraI t x imm.toNat
def execVmovi (d : BitVec 10) (imm : BitVec 23) (t : IType) (s : State) :=
  s.vForm 2 d (vecOf (IType.width t) (List.replicate (512 / IType.width t) (fitI t false (s.imm23 imm))))

/-! ## Floating-point forms (R146-R150) -/

/-- Lanes that carry flags, put together. -/
def outOf (w : Nat) (nan : Nat → Bool) (ls : List (Nat × Nat)) : VOut :=
  { val := vecOf w (ls.map Prod.fst), flags := ls.foldl (fun f e => f ||| e.2) 0,
    nans := fromLanes 1 (ls.map fun e => bitOf (nan e.1)) }

/-- The lanes of a float result. -/
def floatOut (t : FType) (ls : List (Nat × Nat)) : VOut := outOf (FType.width t) (isNanPattern (FType.fmt t)) ls

/-- An exact value rounded to its type, with its own flags beside those of the rounding. -/
def roundLane (t : FType) (rm : RMode) (x : FVal × Nat) (rnd : Nat) : Nat × Nat :=
  let r := roundF (FType.fmt t) rm false rnd x.1
  (r.1, r.2 ||| x.2)

/-- The values of a source's lanes. -/
def State.fLanes (s : State) (t : FType) (r : BitVec 10) : List FVal :=
  (s.vLanes (FType.width t) r).map (decodeF (FType.fmt t))

/-- The lane results `xs` rounded in the form's mode, and the counter value it draws (R138). -/
def State.floatForm (s : State) (lat : Nat) (d : BitVec 10) (t : FType) (rm : RMode) (xs : List (FVal × Nat)) :
    Host.Outcome State Fault Refusal :=
  let m := s.rmode rm
  s.attempt s.vPhase fun s =>
    (s.deliver lat d (floatOut t (List.zipWith (roundLane t m) xs (s.randsFor m xs.length)))).drawnFor m

def State.float2 (s : State) (lat : Nat) (d a b : BitVec 10) (t : FType) (rm : RMode) (f : FVal → FVal → FVal × Nat) :
    Host.Outcome State Fault Refusal :=
  s.floatForm lat d t rm (List.zipWith f (s.fLanes t a) (s.fLanes t b))

/-- The product of A and B, fused with the addend (R146). -/
def fmaV (rd : Bool) (p : FVal × Nat) (c : FVal) : FVal × Nat :=
  let r := addV rd p.1 c
  (r.1, r.2 ||| p.2)

def State.float3 (s : State) (d a b c : BitVec 10) (t : FType) (rm : RMode) (negP negC : Bool) :
    Host.Outcome State Fault Refusal :=
  let rd := decide (s.rmode rm = .rd)
  let ps := (List.zipWith mulV (s.fLanes t a) (s.fLanes t b)).map fun p => (if negP then p.1.neg else p.1, p.2)
  s.floatForm 4 d t rm (List.zipWith (fmaV rd) ps ((s.fLanes t c).map fun v => if negC then v.neg else v))

def execVfadd (d a b : BitVec 10) (t : FType) (rm : RMode) (s : State) :=
  s.float2 4 d a b t rm (addV (decide (s.rmode rm = .rd)))
def execVfsub (d a b : BitVec 10) (t : FType) (rm : RMode) (s : State) :=
  s.float2 4 d a b t rm fun x y => addV (decide (s.rmode rm = .rd)) x y.neg
def execVfmul (d a b : BitVec 10) (t : FType) (rm : RMode) (s : State) := s.float2 4 d a b t rm mulV
def execVfma (d a b c : BitVec 10) (t : FType) (rm : RMode) (s : State) := s.float3 d a b c t rm false false
def execVfms (d a b c : BitVec 10) (t : FType) (rm : RMode) (s : State) := s.float3 d a b c t rm false true
def execVfnma (d a b c : BitVec 10) (t : FType) (rm : RMode) (s : State) := s.float3 d a b c t rm true false
def execVfmin (d a b : BitVec 10) (t : FType) (s : State) := s.float2 2 d a b t .rne (fminV false)
def execVfmax (d a b : BitVec 10) (t : FType) (s : State) := s.float2 2 d a b t .rne (fminV true)
def execVfdiv (d a b : BitVec 10) (t : FType) (rm : RMode) (s : State) := s.float2 12 d a b t rm divV
def execVfsqrt (d a : BitVec 10) (t : FType) (rm : RMode) (s : State) :=
  s.floatForm 12 d t rm ((s.fLanes t a).map sqrtV)

/-- VFCMP: the mask lanes, and NV for a signalling operand (R147). -/
def State.vfcmp (s : State) (d a b : BitVec 10) (t : FType) (c : FVal → FVal → Bool) : Host.Outcome State Fault Refusal :=
  s.vDeliver 2 d (outOf (FType.width t) (fun _ => false)
    (List.zipWith (fun x y => (maskLane (FType.width t) (c x y), sigNV [x, y])) (s.fLanes t a) (s.fLanes t b)))

def execVfcmpEq (d a b : BitVec 10) (t : FType) (s : State) := s.vfcmp d a b t eqV
def execVfcmpNe (d a b : BitVec 10) (t : FType) (s : State) := s.vfcmp d a b t fun x y => !eqV x y
def execVfcmpLt (d a b : BitVec 10) (t : FType) (s : State) := s.vfcmp d a b t ltV
def execVfcmpLe (d a b : BitVec 10) (t : FType) (s : State) := s.vfcmp d a b t fun x y => ltV x y || eqV x y
def execVfcmpGt (d a b : BitVec 10) (t : FType) (s : State) := s.vfcmp d a b t fun x y => ltV y x
def execVfcmpGe (d a b : BitVec 10) (t : FType) (s : State) := s.vfcmp d a b t fun x y => ltV y x || eqV x y
def execVfcmpUo (d a b : BitVec 10) (t : FType) (s : State) := s.vfcmp d a b t fun x y => x.isNan || y.isNan
def execVfcmpOrd (d a b : BitVec 10) (t : FType) (s : State) := s.vfcmp d a b t fun x y => !x.isNan && !y.isNan

/-- A lane with its sign bit replaced; a NaN becomes canonical (R148). -/
def signLane (t : FType) (neg : Bool) (a : Nat) : Nat × Nat :=
  let f := FType.fmt t
  let v := decodeF f a
  if v.isNan then (canonNan f, sigNV [v]) else (fld a 0 (Fmt.width f - 1) + signBit f neg, 0)

/-- The sign bit of a lane. -/
def laneNeg (t : FType) (a : Nat) : Bool := decide (fld a (FType.width t - 1) 1 = 1)

def State.vfsgn (s : State) (d a b : BitVec 10) (t : FType) (f : Bool → Bool → Bool) : Host.Outcome State Fault Refusal :=
  let w := FType.width t
  s.vDeliver 2 d (floatOut t (List.zipWith (fun x y => signLane t (f (laneNeg t x) (laneNeg t y)) x) (s.vLanes w a)
    (s.vLanes w b)))

def execVfsgnCopy (d a b : BitVec 10) (t : FType) (s : State) := s.vfsgn d a b t fun _ y => y
def execVfsgnNcopy (d a b : BitVec 10) (t : FType) (s : State) := s.vfsgn d a b t fun _ y => !y
def execVfsgnXor (d a b : BitVec 10) (t : FType) (s : State) := s.vfsgn d a b t fun x y => xor x y
def execVfsgnAbs (d a : BitVec 10) (t : FType) (s : State) := s.vfsgn d a a t fun _ _ => false
def execVfsgnNeg (d a : BitVec 10) (t : FType) (s : State) := s.vfsgn d a a t fun x _ => !x

/-- A reference form (R150): rounded RNE. -/
def State.refForm (s : State) (lat : Nat) (d a : BitVec 10) (t : FType) (f : FVal → FVal × Nat) :
    Host.Outcome State Fault Refusal := s.floatForm lat d t .rne ((s.fLanes t a).map f)

def execVfrcp (d a : BitVec 10) (t : FType) (s : State) := s.refForm 6 d a t rcpV
def execVfrsq (d a : BitVec 10) (t : FType) (s : State) := s.refForm 6 d a t rsqV
def execVfexp2 (d a : BitVec 10) (t : FType) (s : State) := s.refForm 8 d a t exp2V
def execVflog2 (d a : BitVec 10) (t : FType) (s : State) := s.refForm 8 d a t log2V
def execVfactTanh (d a : BitVec 10) (t : FType) (s : State) := s.refForm 8 d a t tanhV
def execVfactSigm (d a : BitVec 10) (t : FType) (s : State) := s.refForm 8 d a t sigmV
def execVfactGelu (d a : BitVec 10) (t : FType) (s : State) := s.refForm 8 d a t (geluV geluRef)
def execVfactSilu (d a : BitVec 10) (t : FType) (s : State) := s.refForm 8 d a t (geluV siluRef)

/-- A lane's class, one bit (R149). -/
def classLane (f : Fmt) (v : FVal) : Nat :=
  match v with
  | .inf n => if n then 1 else 128
  | .zero n => if n then 8 else 16
  | .nan g => if g then 256 else 512
  | .fin q =>
    let sub := decide (absR q < pow2 (Fmt.emin f))
    if q < 0 then (if sub then 4 else 2) else (if sub then 32 else 64)

def execVfcls (d a : BitVec 10) (t : FType) (s : State) : Host.Outcome State Fault Refusal :=
  s.vForm 2 d (vecOf (FType.width t) ((s.fLanes t a).map (classLane (FType.fmt t))))

/-- VFRND's integral value and flags (R149). -/
def rndLane (t : FType) (rm : RMode) (x : FVal) (rnd : Nat) : Nat × Nat :=
  match x with
  | .fin q =>
    let k := roundInt (absR q) rm (decide (q < 0)) rnd
    let v : Rat := if q < 0 then -(k : Rat) else (k : Rat)
    ((roundF (FType.fmt t) .rne false 0 (FVal.ofRat v (decide (q < 0)))).1, bitOf (decide ((k : Rat) ≠ absR q)))
  | y => ((roundF (FType.fmt t) .rne false 0 y).1, sigNV [y])

def execVfrnd (d a : BitVec 10) (t : FType) (rm : RMode) (s : State) : Host.Outcome State Fault Refusal :=
  let m := s.rmode rm
  s.attempt s.vPhase fun s =>
    (s.deliver 4 d (floatOut t (List.zipWith (rndLane t m) (s.fLanes t a) (s.randsFor m (512 / FType.width t))))).drawnFor m

/-! ## Conversions and block formats (R151-R153) -/

/-- One element of VCVT. -/
def cvtElem (df sf : Fmt) (rm : RMode) (sat : Bool) (b rnd : Nat) : Nat × Nat :=
  if Fmt.isInt sf && Fmt.isInt df then (wrapI df (if sat then satI df (decodeI sf b) else decodeI sf b), 0)
  else
    let v := decodeAny sf b
    let r := roundAny df rm sat rnd v
    (r.1, r.2 ||| sigNV [v])

def execVcvt (d a : BitVec 10) (df sf : Fmt) (rm : RMode) (sat : Bool) (s : State) : Host.Outcome State Fault Refusal :=
  let m := s.rmode rm
  let n := 512 / max (Fmt.width sf) (Fmt.width df)
  s.attempt s.vPhase fun s =>
    (s.deliver 4 d (outOf (Fmt.width df) (fun e => !Fmt.isInt df && isNanPattern df e)
      (List.zipWith (cvtElem df sf m sat) (lanes (s.src a).toNat (Fmt.width sf) n) (s.randsFor m n)))).drawnFor m

/-- BLKDELTA's gap for a block format (Table 1.8). -/
def Regs.delta (r : Regs) : Blk → Nat
  | .b4 => fld r.blkdelta.toNat 0 4
  | .b10 => fld r.blkdelta.toNat 8 4

def State.vqblk (s : State) (k : Blk) (d a b : BitVec 10) (rm : RMode) : Host.Outcome State Fault Refusal :=
  let m := s.rmode rm
  s.attempt s.vPhase fun s =>
    let xs := (s.fLanes .f32 a) ++ ((s.fLanes .f32 b).take 8)
    let r := quantizeBlock k (s.me.regs.delta k) m xs (s.randsFor m 24)
    (s.deliver 4 d { val := BitVec.ofNat 512 r.1, flags := r.2, nans := bitOf (poisoned k r.1) }).drawnFor m

def execVqblkB4 (d a b : BitVec 10) (rm : RMode) (s : State) := s.vqblk .b4 d a b rm
def execVqblkB10 (d a b : BitVec 10) (rm : RMode) (s : State) := s.vqblk .b10 d a b rm

/-- VDQBLK: the lanes of a view, with their NaNs (R153). -/
def State.vdqblk (s : State) (k : Blk) (f : Fmt) (from_ n : Nat) (d a : BitVec 10) : Host.Outcome State Fault Refusal :=
  s.vDeliver 4 d (outOf (Fmt.width f) (isNanPattern f)
    ((List.range n).map fun i => (blockLane f k ((s.src a).toNat % 2 ^ (8 * k.bytes)) (from_ + i), 0)))

def execVdqblkB4Bf24 (d a : BitVec 10) (s : State) := s.vdqblk .b4 .bf16 0 24 d a
def execVdqblkB4Lo (d a : BitVec 10) (s : State) := s.vdqblk .b4 .f32 0 16 d a
def execVdqblkB4Hi (d a : BitVec 10) (s : State) := s.vdqblk .b4 .f32 16 8 d a
def execVdqblkB10Bf24 (d a : BitVec 10) (s : State) := s.vdqblk .b10 .bf16 0 24 d a
def execVdqblkB10Lo (d a : BitVec 10) (s : State) := s.vdqblk .b10 .f32 0 16 d a
def execVdqblkB10Hi (d a : BitVec 10) (s : State) := s.vdqblk .b10 .f32 16 8 d a

/-! ## Reductions (R84, R154) -/

/-- A reduction into lane 0. -/
def State.vred (s : State) (d a : BitVec 10) (t : IType) (f : Nat → Nat → Nat) : Host.Outcome State Fault Refusal :=
  let ls := s.vLanes (IType.width t) a
  s.vForm 6 d (BitVec.ofNat 512 (ls.tail.foldl f (ls.headD 0)))

def execVredAdd (d a : BitVec 10) (t : IType) (s : State) := s.vred d a t fun x y => (x + y) % 2 ^ IType.width t
def execVredMax (d a : BitVec 10) (t : IType) (s : State) := s.vred d a t (minFmt (IType.fmt t) true)
def execVredMin (d a : BitVec 10) (t : IType) (s : State) := s.vred d a t (minFmt (IType.fmt t) false)
def execVredAnd (d a : BitVec 10) (t : IType) (s : State) := s.vred d a t fun x y => x &&& y
def execVredOr (d a : BitVec 10) (t : IType) (s : State) := s.vred d a t fun x y => x ||| y
def execVredXor (d a : BitVec 10) (t : IType) (s : State) := s.vred d a t fun x y => x ^^^ y

/-- One level of the pairwise tree: neighbours combined, flags gathered. -/
def pairLevel (f : FVal → FVal → FVal × Nat) : List FVal → List FVal × Nat
  | x :: y :: r =>
    let z := f x y
    let rest := pairLevel f r
    (z.1 :: rest.1, z.2 ||| rest.2)
  | l => (l, 0)

/-- The pairwise tree of R84 over 2^k values. -/
def pairTree (f : FVal → FVal → FVal × Nat) : Nat → List FVal → FVal × Nat
  | 0, l => (l.headD (.zero false), 0)
  | k + 1, l =>
    let lev := pairLevel f l
    let r := pairTree f k lev.1
    (r.1, r.2 ||| lev.2)

/-- A sum rounded RNE to f32, with its flags. -/
def sumNode (x y : FVal) : FVal × Nat :=
  let v := addV false x y
  let r := roundF .f32 .rne false 0 v.1
  (decodeF .f32 r.1, r.2 ||| v.2)

def State.vfred (s : State) (d a : BitVec 10) (t : FType) (f : FVal → FVal → FVal × Nat) : Host.Outcome State Fault Refusal :=
  let x := pairTree f 5 (s.fLanes t a)
  let r := roundLane t .rne x 0
  s.vDeliver 6 d (floatOut t [r])

def execVfredSum (d a : BitVec 10) (t : FType) (s : State) := s.vfred d a t sumNode
def execVfredMax (d a : BitVec 10) (t : FType) (s : State) := s.vfred d a t (fminV true)
def execVfredMin (d a : BitVec 10) (t : FType) (s : State) := s.vfred d a t (fminV false)

/-! ## Permutes and moves (R155, R156) -/

/-- A permute: lane `i` of the result from the lanes of A and B. -/
def State.permute (s : State) (d a b : BitVec 10) (t : IType) (f : Nat → List Nat → List Nat → Nat → Nat) :
    Host.Outcome State Fault Refusal :=
  let w := IType.width t
  let n := 512 / w
  s.vForm 2 d (vecOf w ((List.range n).map (f n (s.vLanes w a) (s.vLanes w b))))

def execVperm (d a b : BitVec 10) (t : IType) (s : State) :=
  s.permute d a b t fun n x y i => x.getD (y.getD i 0 % n) 0
def execVbcast (d a : BitVec 10) (t : IType) (l : BitVec 4) (s : State) :=
  s.permute d a a t fun _ x _ _ => x.getD l.toNat 0
def execVslide (d a b : BitVec 10) (t : IType) (k : BitVec 4) (s : State) :=
  s.permute d a b t fun n x y i => if i + k.toNat < n then x.getD (i + k.toNat) 0 else y.getD (i + k.toNat - n) 0
def execVzipLo (d a b : BitVec 10) (t : IType) (s : State) :=
  s.permute d a b t fun _ x y i => if i % 2 = 0 then x.getD (i / 2) 0 else y.getD (i / 2) 0
def execVzipHi (d a b : BitVec 10) (t : IType) (s : State) :=
  s.permute d a b t fun n x y i => if i % 2 = 0 then x.getD (i / 2 + n / 2) 0 else y.getD (i / 2 + n / 2) 0
def execVzipEven (d a b : BitVec 10) (t : IType) (s : State) :=
  s.permute d a b t fun n x y i => if i < n / 2 then x.getD (2 * i) 0 else y.getD (2 * (i - n / 2)) 0
def execVzipOdd (d a b : BitVec 10) (t : IType) (s : State) :=
  s.permute d a b t fun n x y i => if i < n / 2 then x.getD (2 * i + 1) 0 else y.getD (2 * (i - n / 2) + 1) 0

/-- VRNG consumes one counter value whatever its type (R156). -/
def execVrng (d : BitVec 10) (_t : IType) (s : State) : Host.Outcome State Fault Refusal :=
  s.attempt s.vPhase fun s => (s.writeV 4 d (vecOf 16 (s.rands 32))).drawn
def execVmov (d a : BitVec 10) (s : State) := s.vForm 2 d (s.src a)

/-! ## XCOPY and EXT, in every slot (R55-R57, R111, R133, R161, R222) -/

/-- Phase legality of XCOPY and EXT: the M, V and W slots refuse every form in an exchange phase (R115, R135). -/
def State.slotPhase (s : State) : Option TrapInfo :=
  match s.latch.slot with
  | .m | .v | .w => s.mPhase
  | _ => none

/-- The source register of XCOPY, in the running slot's own file. -/
def State.xsrc (s : State) (r : BitVec 10) : Vec :=
  match s.latch.slot with
  | .k => s.me.regs.get (.k r.toNat)
  | .m => s.me.regs.get (.a r.toNat)
  | .v => s.vec .v r.toNat
  | .w => s.vec .w r.toNat
  | .x => s.me.regs.get (.x r.toNat)

/-- The destination register of XCOPY, resolved at issue. -/
def Regs.xdst (r : Regs) (f : DFile) (n : BitVec 10) : RegId :=
  match f with
  | .k => .k n.toNat
  | .m => .a n.toNat
  | .v => .v (r.phys .v n.toNat)
  | .w => .w (r.phys .w n.toNat)
  | .x => .x n.toNat
  | .p => .p n.toNat

/-- XCOPY's priority among the writes of its bundle (R23, R111): a write into its own slot's file is the file's own, and the
others come in the order of the slots. -/
def xprio (slot : Slot) (f : DFile) : Nat :=
  match slot, f with
  | .k, .k | .k, .p | .m, .m | .v, .v | .w, .w | .x, .x => 0
  | s, _ => 2 + slotNo s

/-- XCOPY's write, in the order of R23. -/
def State.xwrite (s : State) (f : DFile) (n : BitVec 10) (v : Vec) : Host.Outcome State Fault Refusal :=
  s.attempt s.slotPhase fun s => s.fly s.latch.core (xprio s.latch.slot f) 2 (s.me.regs.xdst f n) v

/-- A vector destination takes the whole source; a scalar one its low 64 bits; a predicate its bit 0. -/
def wholeTo (f : DFile) (v : Vec) : Vec :=
  match f with
  | .v | .w => v
  | .p => BitVec.ofNat 512 (bitOf (v.getLsbD 0))
  | _ => (v.setWidth 64).setWidth 512

/-- A 32-bit lane replaced. -/
def putLane (v : Vec) (i x : Nat) : Vec := vecOf 32 ((List.range 16).map fun j => if j = i then x else laneOf v.toNat 32 j)

/-- The 32-bit lane that a lane-mode XCOPY takes: LANE of a vector source, bits [31:0] of a scalar one. -/
def State.xlane (s : State) (src : Vec) (l : BitVec 4) : Nat :=
  match s.latch.slot with
  | .v | .w => laneOf src.toNat 32 l.toNat
  | _ => laneOf src.toNat 32 0

def execXcopy (f : DFile) (d a : BitVec 10) (s : State) := s.xwrite f d (wholeTo f (s.xsrc a))
def execXcopyLane (f : DFile) (d a : BitVec 10) (l : BitVec 4) (s : State) :=
  let x := s.xlane (s.xsrc a) l
  s.xwrite f d (match f with
    | .v | .w => putLane (s.me.regs.get (s.me.regs.xdst f d)) l.toNat x
    | .p => BitVec.ofNat 512 (x % 2)
    | _ => BitVec.ofNat 512 x)
def execXcopyBcast (f : DFile) (d a : BitVec 10) (s : State) :=
  s.xwrite f d (vecOf 32 (List.replicate 16 (laneOf (s.xsrc a).toNat 32 0)))

/-- EXT leaves its payload pending for the same slot of the next bundle (R56, R57). -/
def execExt (payload : BitVec 51) (s : State) : Host.Outcome State Fault Refusal :=
  s.attempt s.slotPhase fun s =>
    { s with latch := { s.latch with
        given := s.latch.given ++ [(s.latch.slot, { payload := payload, bad := decide (fld s.latch.word 51 5 ≠ 0) })] } }

end Sys2Proof.Machine
end

