-- ==== Sys2Proof/Machine/Slots.lean ====
section
/-! DEFINITION. What a slot word does when it runs: one call of a meaning per form; and the registers that each form reads and
writes, with its latencies (01 R22, R25, Table 1.5). -/

namespace Sys2Proof.Machine

/-- Run a form of a slot of its own; an operation that no slot holds does nothing. -/
def runOp (i : Instr) (s : State) : Host.Outcome State Fault Refusal :=
  match i with
  | .add d a b => execAdd d a b s
  | .sub d a b => execSub d a b s
  | .and d a b => execAnd d a b s
  | .or d a b => execOr d a b s
  | .xor d a b => execXor d a b s
  | .andn d a b => execAndn d a b s
  | .shl d a b => execShl d a b s
  | .shr d a b => execShr d a b s
  | .sra d a b => execSra d a b s
  | .min d a b => execMin d a b s
  | .max d a b => execMax d a b s
  | .minn d a b => execMinn d a b s
  | .maxn d a b => execMaxn d a b s
  | .mul d a b => execMul d a b s
  | .mulh d a b => execMulh d a b s
  | .mulhn d a b => execMulhn d a b s
  | .div d a b => execDiv d a b s
  | .divn d a b => execDivn d a b s
  | .rem d a b => execRem d a b s
  | .remn d a b => execRemn d a b s
  | .clz d a => execClz d a s
  | .ctz d a => execCtz d a s
  | .popc d a => execPopc d a s
  | .sel d a b ps => execSel d a b ps s
  | .addi d a imm => execAddi d a imm s
  | .andi d a imm => execAndi d a imm s
  | .ori d a imm => execOri d a imm s
  | .xori d a imm => execXori d a imm s
  | .shli d a imm => execShli d a imm s
  | .shri d a imm => execShri d a imm s
  | .srai d a imm => execSrai d a imm s
  | .movi d imm => execMovi d imm s
  | .muli d a imm => execMuli d a imm s
  | .cmpEq pd a b => execCmpEq pd a b s
  | .cmpNe pd a b => execCmpNe pd a b s
  | .cmpLt pd a b => execCmpLt pd a b s
  | .cmpLe pd a b => execCmpLe pd a b s
  | .cmpLtn pd a b => execCmpLtn pd a b s
  | .cmpLen pd a b => execCmpLen pd a b s
  | .cmpiEq pd a imm => execCmpiEq pd a imm s
  | .cmpiNe pd a imm => execCmpiNe pd a imm s
  | .cmpiLt pd a imm => execCmpiLt pd a imm s
  | .cmpiLe pd a imm => execCmpiLe pd a imm s
  | .cmpiLtn pd a imm => execCmpiLtn pd a imm s
  | .cmpiLen pd a imm => execCmpiLen pd a imm s
  | .pand pd pa pb => execPand pd pa pb s
  | .por pd pa pb => execPor pd pa pb s
  | .pxor pd pa pb => execPxor pd pa pb s
  | .pandn pd pa pb => execPandn pd pa pb s
  | .pset a => execPset a s
  | .pget d => execPget d s
  | .br off => execBr off s
  | .jmp a => execJmp a s
  | .call off => execCall off s
  | .ret a => execRet a s
  | .loop a off => execLoop a off s
  | .loopi off n => execLoopi off n s
  | .lexit off => execLexit off s
  | .lidx d lvl => execLidx d lvl s
  | .rotset imm => execRotset imm s
  | .tick d => execTick d s
  | .scyc d => execScyc d s
  | .phase d => execPhase d s
  | .lkstat d => execLkstat d s
  | .sleept a => execSleept a s
  | .lock round win bound => execLock round win bound s
  | .lockAnd p round win bound => execLockAnd p round win bound s
  | .lockOr p round win bound => execLockOr p round win bound s
  | .endProg bound => execEndProg bound s
  | .csrr d n => execCsrr d n s
  | .csrw d a n imm => execCsrw d a n imm s
  | .csrs d a n imm => execCsrs d a n imm s
  | .csrc d a n imm => execCsrc d a n imm s
  | .aadd d a b => execAadd d a b s
  | .asub d a b => execAsub d a b s
  | .aaddi d a imm => execAaddi d a imm s
  | .ashli d a imm => execAshli d a imm s
  | .amuli d a imm => execAmuli d a imm s
  | .amovi d imm => execAmovi d imm s
  | .ldb m => execLdb m s
  | .ldbn m => execLdbn m s
  | .ldh m => execLdh m s
  | .ldhn m => execLdhn m s
  | .ldw m => execLdw m s
  | .ldwn m => execLdwn m s
  | .ldd m => execLdd m s
  | .ldv m view => execLdv m view s
  | .ldvs m view stride => execLdvs m view stride s
  | .ldacc m => execLdacc m s
  | .stb m => execStb m s
  | .sth m => execSth m s
  | .stw m => execStw m s
  | .std m => execStd m s
  | .stv m => execStv m s
  | .stvs m stride => execStvs m stride s
  | .stvm m mask => execStvm m mask s
  | .spill file reg => execSpill file reg s
  | .fill file reg => execFill file reg s
  | .vadd d a b t sat => execVadd d a b t sat s
  | .vsub d a b t sat => execVsub d a b t sat s
  | .vmul d a b t sat => execVmul d a b t sat s
  | .vmulh d a b t sat => execVmulh d a b t sat s
  | .vmin d a b t sat => execVmin d a b t sat s
  | .vmax d a b t sat => execVmax d a b t sat s
  | .vand d a b t sat => execVand d a b t sat s
  | .vor d a b t sat => execVor d a b t sat s
  | .vxor d a b t sat => execVxor d a b t sat s
  | .vshl d a b t sat => execVshl d a b t sat s
  | .vshr d a b t sat => execVshr d a b t sat s
  | .vsra d a b t sat => execVsra d a b t sat s
  | .vabs d a t sat => execVabs d a t sat s
  | .vcmpEq d a b t => execVcmpEq d a b t s
  | .vcmpNe d a b t => execVcmpNe d a b t s
  | .vcmpLt d a b t => execVcmpLt d a b t s
  | .vcmpLe d a b t => execVcmpLe d a b t s
  | .vcmpGt d a b t => execVcmpGt d a b t s
  | .vcmpGe d a b t => execVcmpGe d a b t s
  | .vcmpUo d a b t => execVcmpUo d a b t s
  | .vcmpOrd d a b t => execVcmpOrd d a b t s
  | .vsel d a b c t => execVsel d a b c t s
  | .vdot4Ss d a b c sat => execVdot4Ss d a b c sat s
  | .vdot4Su d a b c sat => execVdot4Su d a b c sat s
  | .vdot4Us d a b c sat => execVdot4Us d a b c sat s
  | .vdot4Uu d a b c sat => execVdot4Uu d a b c sat s
  | .vaddi d a imm t => execVaddi d a imm t s
  | .vshli d a imm t => execVshli d a imm t s
  | .vshri d a imm t => execVshri d a imm t s
  | .vsrai d a imm t => execVsrai d a imm t s
  | .vmovi d imm t => execVmovi d imm t s
  | .vfadd d a b t rm => execVfadd d a b t rm s
  | .vfsub d a b t rm => execVfsub d a b t rm s
  | .vfmul d a b t rm => execVfmul d a b t rm s
  | .vfma d a b c t rm => execVfma d a b c t rm s
  | .vfms d a b c t rm => execVfms d a b c t rm s
  | .vfnma d a b c t rm => execVfnma d a b c t rm s
  | .vfmin d a b t => execVfmin d a b t s
  | .vfmax d a b t => execVfmax d a b t s
  | .vfcmpEq d a b t => execVfcmpEq d a b t s
  | .vfcmpNe d a b t => execVfcmpNe d a b t s
  | .vfcmpLt d a b t => execVfcmpLt d a b t s
  | .vfcmpLe d a b t => execVfcmpLe d a b t s
  | .vfcmpGt d a b t => execVfcmpGt d a b t s
  | .vfcmpGe d a b t => execVfcmpGe d a b t s
  | .vfcmpUo d a b t => execVfcmpUo d a b t s
  | .vfcmpOrd d a b t => execVfcmpOrd d a b t s
  | .vfsgnCopy d a b t => execVfsgnCopy d a b t s
  | .vfsgnNcopy d a b t => execVfsgnNcopy d a b t s
  | .vfsgnXor d a b t => execVfsgnXor d a b t s
  | .vfsgnAbs d a t => execVfsgnAbs d a t s
  | .vfsgnNeg d a t => execVfsgnNeg d a t s
  | .vfrcp d a t => execVfrcp d a t s
  | .vfrsq d a t => execVfrsq d a t s
  | .vfexp2 d a t => execVfexp2 d a t s
  | .vflog2 d a t => execVflog2 d a t s
  | .vfsqrt d a t rm => execVfsqrt d a t rm s
  | .vfdiv d a b t rm => execVfdiv d a b t rm s
  | .vfactTanh d a t => execVfactTanh d a t s
  | .vfactSigm d a t => execVfactSigm d a t s
  | .vfactGelu d a t => execVfactGelu d a t s
  | .vfactSilu d a t => execVfactSilu d a t s
  | .vfcls d a t => execVfcls d a t s
  | .vcvt d a dfmt sfmt rm sat => execVcvt d a dfmt sfmt rm sat s
  | .vqblkB4 d a b rm => execVqblkB4 d a b rm s
  | .vqblkB10 d a b rm => execVqblkB10 d a b rm s
  | .vdqblkB4Bf24 d a => execVdqblkB4Bf24 d a s
  | .vdqblkB4Lo d a => execVdqblkB4Lo d a s
  | .vdqblkB4Hi d a => execVdqblkB4Hi d a s
  | .vdqblkB10Bf24 d a => execVdqblkB10Bf24 d a s
  | .vdqblkB10Lo d a => execVdqblkB10Lo d a s
  | .vdqblkB10Hi d a => execVdqblkB10Hi d a s
  | .vfrnd d a t rm => execVfrnd d a t rm s
  | .vredAdd d a t => execVredAdd d a t s
  | .vredMax d a t => execVredMax d a t s
  | .vredMin d a t => execVredMin d a t s
  | .vredAnd d a t => execVredAnd d a t s
  | .vredOr d a t => execVredOr d a t s
  | .vredXor d a t => execVredXor d a t s
  | .vfredSum d a t => execVfredSum d a t s
  | .vfredMax d a t => execVfredMax d a t s
  | .vfredMin d a t => execVfredMin d a t s
  | .vperm d a b t => execVperm d a b t s
  | .vbcast d a t lane => execVbcast d a t lane s
  | .vslide d a b t n => execVslide d a b t n s
  | .vzipLo d a b t => execVzipLo d a b t s
  | .vzipHi d a b t => execVzipHi d a b t s
  | .vzipEven d a b t => execVzipEven d a b t s
  | .vzipOdd d a b t => execVzipOdd d a b t s
  | .vrng d t => execVrng d t s
  | .vmov d a => execVmov d a s
  | .xmovi d imm => execXmovi d imm s
  | .xaddi d a imm => execXaddi d a imm s
  | .send ch xs bound => execSend ch xs bound s
  | .recv ch xs bound => execRecv ch xs bound s
  | .sendrAddF32 ch xs bound => execSendrAddF32 ch xs bound s
  | .sendrAddBf16 ch xs bound => execSendrAddBf16 ch xs bound s
  | .sendrMaxF32 ch xs bound => execSendrMaxF32 ch xs bound s
  | .sendrMinF32 ch xs bound => execSendrMinF32 ch xs bound s
  | .sendrAddI32 ch xs bound => execSendrAddI32 ch xs bound s
  | .sendrXor ch xs bound => execSendrXor ch xs bound s
  | .recvr ch xs bound => execRecvr ch xs bound s
  | .chst ch xs => execChst ch xs s
  | .pregSw ph => execPregSw ph s
  | .pregSo ph => execPregSo ph s
  | .pregWo ph => execPregWo ph s
  | .pdrop ph => execPdrop ph s
  | .psig ph => execPsig ph s
  | .pwait ph bound => execPwait ph bound s
  | .scfg st field xa => execScfg st field xa s
  | .sbind st file reg out => execSbind st file reg out s
  | .sfree st => execSfree st s
  | .swait st bound => execSwait st bound s
  | .sgo st => execSgo st s
  | .omclaim d => execOmclaim d s
  | .omrel a => execOmrel a s
  | .mstat d => execMstat d s
  | .mcfg level field xa => execMcfg level field xa s
  | .mgo lra lrb bound => execMgo lra lrb bound s
  | .mswap bound => execMswap bound s
  | .mwait bound => execMwait bound s
  | .mred acc bound => execMred acc bound s
  | .mclr acc => execMclr acc s
  | .qget o => execQget o s
  | .qput o => execQput o s
  | .qgath o => execQgath o s
  | .qatomAdd o => execQatomAdd o s
  | .qatomMin o => execQatomMin o s
  | .qatomMax o => execQatomMax o s
  | .qatomMinn o => execQatomMinn o s
  | .qatomMaxn o => execQatomMaxn o s
  | .qatomSwap o => execQatomSwap o s
  | .qatomCas o => execQatomCas o s
  | .qatomAnd o => execQatomAnd o s
  | .qatomOr o => execQatomOr o s
  | .qatomXor o => execQatomXor o s
  | .qmark q => execQmark q s
  | .qtpop q xd tid bound => execQtpop q xd tid bound s
  | .qwait q xd bound => execQwait q xd bound s
  | .coll xa xd => execColl xa xd s
  | .cwait xd bound => execCwait xd bound s
  | .osend och xa bound => execOsend och xa bound s
  | .orecv och xa bound => execOrecv och xa bound s
  | .ogap gap => execOgap gap s
  | .over a => execOver a s
  | .tadj => execTadj s
  | .tret => execTret s
  | .tretSkip => execTretSkip s
  | .mark => execMark s
  | _ => .next s

/-- Run what a slot word holds. -/
def runBody (b : Body) (s : State) : Host.Outcome State Fault Refusal :=
  match b with
  | .op i => runOp i s
  | .trap imm => execTrap imm s
  | .brk imm => execBrk imm s
  | .esc imm => execEsc imm s
  | .xcopy df d a => execXcopy df d a s
  | .xcopyLane df d a l => execXcopyLane df d a l s
  | .xcopyBcast df d a => execXcopyBcast df d a s
  | .ext p => execExt p s

/-! ## The registers that forms name -/

/-- A register as a word names it: a vector register before the ring of R30. -/
def memName (m : MemOp) : RegId :=
  match m.file with
  | .k => .k m.reg.toNat
  | .m => .a m.reg.toNat
  | .v => .v m.reg.toNat
  | .w => .w m.reg.toNat

/-- The registers that a form of a slot of its own reads. A CSR form of ROTSZ, whose STG shows p8 to p15, counts as a read of none of
them (DESIGN CHOICE, log entry 52). -/
def opReads (slot : Slot) (i : Instr) : List RegId :=
  let v (n : BitVec 10) : RegId := vecId (vfileOf slot) n.toNat
  let k (n : BitVec 5) : RegId := .k n.toNat
  let a_ (n : BitVec 5) : RegId := .a n.toNat
  let p_ (n : BitVec 4) : RegId := .p n.toNat
  let x (n : BitVec 4) : RegId := .x n.toNat
  match i with
  | .add _ a b => [k a, k b]
  | .sub _ a b => [k a, k b]
  | .and _ a b => [k a, k b]
  | .or _ a b => [k a, k b]
  | .xor _ a b => [k a, k b]
  | .andn _ a b => [k a, k b]
  | .shl _ a b => [k a, k b]
  | .shr _ a b => [k a, k b]
  | .sra _ a b => [k a, k b]
  | .min _ a b => [k a, k b]
  | .max _ a b => [k a, k b]
  | .minn _ a b => [k a, k b]
  | .maxn _ a b => [k a, k b]
  | .mul _ a b => [k a, k b]
  | .mulh _ a b => [k a, k b]
  | .mulhn _ a b => [k a, k b]
  | .div _ a b => [k a, k b]
  | .divn _ a b => [k a, k b]
  | .rem _ a b => [k a, k b]
  | .remn _ a b => [k a, k b]
  | .clz _ a => [k a]
  | .ctz _ a => [k a]
  | .popc _ a => [k a]
  | .sel _ a b ps => [k a, k b, p_ ps]
  | .addi _ a _ => [k a]
  | .andi _ a _ => [k a]
  | .ori _ a _ => [k a]
  | .xori _ a _ => [k a]
  | .shli _ a _ => [k a]
  | .shri _ a _ => [k a]
  | .srai _ a _ => [k a]
  | .muli _ a _ => [k a]
  | .cmpEq _ a b => [k a, k b]
  | .cmpNe _ a b => [k a, k b]
  | .cmpLt _ a b => [k a, k b]
  | .cmpLe _ a b => [k a, k b]
  | .cmpLtn _ a b => [k a, k b]
  | .cmpLen _ a b => [k a, k b]
  | .cmpiEq _ a _ => [k a]
  | .cmpiNe _ a _ => [k a]
  | .cmpiLt _ a _ => [k a]
  | .cmpiLe _ a _ => [k a]
  | .cmpiLtn _ a _ => [k a]
  | .cmpiLen _ a _ => [k a]
  | .pand _ pa pb => [p_ pa, p_ pb]
  | .por _ pa pb => [p_ pa, p_ pb]
  | .pxor _ pa pb => [p_ pa, p_ pb]
  | .pandn _ pa pb => [p_ pa, p_ pb]
  | .pset a => [k a]
  | .pget _ => (List.range 15).map fun n => .p (n + 1)
  | .jmp a => [k a]
  | .ret a => [k a]
  | .loop a _ => [k a]
  | .sleept a => [k a]
  | .lockAnd p _ _ _ => [p_ p]
  | .lockOr p _ _ _ => [p_ p]
  | .csrw _ a _ _ => [k a]
  | .csrs _ a _ _ => [k a]
  | .csrc _ a _ _ => [k a]
  | .aadd _ a b => [a_ a, a_ b]
  | .asub _ a b => [a_ a, a_ b]
  | .aaddi _ a _ => [a_ a]
  | .ashli _ a _ => [a_ a]
  | .amuli _ a _ => [a_ a]
  | .ldb m => [a_ m.base]
  | .ldbn m => [a_ m.base]
  | .ldh m => [a_ m.base]
  | .ldhn m => [a_ m.base]
  | .ldw m => [a_ m.base]
  | .ldwn m => [a_ m.base]
  | .ldd m => [a_ m.base]
  | .ldv m _ => [a_ m.base]
  | .ldvs m _ stride => [a_ m.base, a_ stride]
  | .ldacc m => [a_ m.base]
  | .stb m => [a_ m.base, memName m]
  | .sth m => [a_ m.base, memName m]
  | .stw m => [a_ m.base, memName m]
  | .std m => [a_ m.base, memName m]
  | .stv m => [a_ m.base, memName m]
  | .stvs m stride => [a_ m.base, a_ stride, memName m]
  | .stvm m mask => [a_ m.base, memName m, vecId (File.vfile m.file) mask.toNat]
  | .spill file reg => [vecId file reg.toNat]
  | .vadd _ a b _ _ => [v a, v b]
  | .vsub _ a b _ _ => [v a, v b]
  | .vmul _ a b _ _ => [v a, v b]
  | .vmulh _ a b _ _ => [v a, v b]
  | .vmin _ a b _ _ => [v a, v b]
  | .vmax _ a b _ _ => [v a, v b]
  | .vand _ a b _ _ => [v a, v b]
  | .vor _ a b _ _ => [v a, v b]
  | .vxor _ a b _ _ => [v a, v b]
  | .vshl _ a b _ _ => [v a, v b]
  | .vshr _ a b _ _ => [v a, v b]
  | .vsra _ a b _ _ => [v a, v b]
  | .vabs _ a _ _ => [v a]
  | .vcmpEq _ a b _ => [v a, v b]
  | .vcmpNe _ a b _ => [v a, v b]
  | .vcmpLt _ a b _ => [v a, v b]
  | .vcmpLe _ a b _ => [v a, v b]
  | .vcmpGt _ a b _ => [v a, v b]
  | .vcmpGe _ a b _ => [v a, v b]
  | .vcmpUo _ a b _ => [v a, v b]
  | .vcmpOrd _ a b _ => [v a, v b]
  | .vsel _ a b c _ => [v a, v b, v c]
  | .vdot4Ss _ a b c _ => [v a, v b, v c]
  | .vdot4Su _ a b c _ => [v a, v b, v c]
  | .vdot4Us _ a b c _ => [v a, v b, v c]
  | .vdot4Uu _ a b c _ => [v a, v b, v c]
  | .vaddi _ a _ _ => [v a]
  | .vshli _ a _ _ => [v a]
  | .vshri _ a _ _ => [v a]
  | .vsrai _ a _ _ => [v a]
  | .vfadd _ a b _ _ => [v a, v b]
  | .vfsub _ a b _ _ => [v a, v b]
  | .vfmul _ a b _ _ => [v a, v b]
  | .vfma _ a b c _ _ => [v a, v b, v c]
  | .vfms _ a b c _ _ => [v a, v b, v c]
  | .vfnma _ a b c _ _ => [v a, v b, v c]
  | .vfmin _ a b _ => [v a, v b]
  | .vfmax _ a b _ => [v a, v b]
  | .vfcmpEq _ a b _ => [v a, v b]
  | .vfcmpNe _ a b _ => [v a, v b]
  | .vfcmpLt _ a b _ => [v a, v b]
  | .vfcmpLe _ a b _ => [v a, v b]
  | .vfcmpGt _ a b _ => [v a, v b]
  | .vfcmpGe _ a b _ => [v a, v b]
  | .vfcmpUo _ a b _ => [v a, v b]
  | .vfcmpOrd _ a b _ => [v a, v b]
  | .vfsgnCopy _ a b _ => [v a, v b]
  | .vfsgnNcopy _ a b _ => [v a, v b]
  | .vfsgnXor _ a b _ => [v a, v b]
  | .vfsgnAbs _ a _ => [v a]
  | .vfsgnNeg _ a _ => [v a]
  | .vfrcp _ a _ => [v a]
  | .vfrsq _ a _ => [v a]
  | .vfexp2 _ a _ => [v a]
  | .vflog2 _ a _ => [v a]
  | .vfsqrt _ a _ _ => [v a]
  | .vfdiv _ a b _ _ => [v a, v b]
  | .vfactTanh _ a _ => [v a]
  | .vfactSigm _ a _ => [v a]
  | .vfactGelu _ a _ => [v a]
  | .vfactSilu _ a _ => [v a]
  | .vfcls _ a _ => [v a]
  | .vcvt _ a _ _ _ _ => [v a]
  | .vqblkB4 _ a b _ => [v a, v b]
  | .vqblkB10 _ a b _ => [v a, v b]
  | .vdqblkB4Bf24 _ a => [v a]
  | .vdqblkB4Lo _ a => [v a]
  | .vdqblkB4Hi _ a => [v a]
  | .vdqblkB10Bf24 _ a => [v a]
  | .vdqblkB10Lo _ a => [v a]
  | .vdqblkB10Hi _ a => [v a]
  | .vfrnd _ a _ _ => [v a]
  | .vredAdd _ a _ => [v a]
  | .vredMax _ a _ => [v a]
  | .vredMin _ a _ => [v a]
  | .vredAnd _ a _ => [v a]
  | .vredOr _ a _ => [v a]
  | .vredXor _ a _ => [v a]
  | .vfredSum _ a _ => [v a]
  | .vfredMax _ a _ => [v a]
  | .vfredMin _ a _ => [v a]
  | .vperm _ a b _ => [v a, v b]
  | .vbcast _ a _ _ => [v a]
  | .vslide _ a b _ _ => [v a, v b]
  | .vzipLo _ a b _ => [v a, v b]
  | .vzipHi _ a b _ => [v a, v b]
  | .vzipEven _ a b _ => [v a, v b]
  | .vzipOdd _ a b _ => [v a, v b]
  | .vmov _ a => [v a]
  | .xaddi _ a _ => [x a]
  | .send _ xs _ => [x xs]
  | .recv _ xs _ => [x xs]
  | .sendrAddF32 _ xs _ => [x xs]
  | .sendrAddBf16 _ xs _ => [x xs]
  | .sendrMaxF32 _ xs _ => [x xs]
  | .sendrMinF32 _ xs _ => [x xs]
  | .sendrAddI32 _ xs _ => [x xs]
  | .sendrXor _ xs _ => [x xs]
  | .recvr _ xs _ => [x xs]
  | .scfg _ _ xa => [x xa]
  | .omrel a => [x a]
  | .mcfg _ _ xa => [x xa]
  | .qget o => [x o.xa, x o.xb]
  | .qput o => [x o.xa, x o.xb]
  | .qgath o => [x o.xa, x o.xb, x o.xd]
  | .qatomAdd o => [x o.xa, x o.xb]
  | .qatomMin o => [x o.xa, x o.xb]
  | .qatomMax o => [x o.xa, x o.xb]
  | .qatomMinn o => [x o.xa, x o.xb]
  | .qatomMaxn o => [x o.xa, x o.xb]
  | .qatomSwap o => [x o.xa, x o.xb]
  | .qatomCas o => [x o.xa, x o.xb]
  | .qatomAnd o => [x o.xa, x o.xb]
  | .qatomOr o => [x o.xa, x o.xb]
  | .qatomXor o => [x o.xa, x o.xb]
  | .qwait _ xd _ => [x xd]
  | .coll xa _ => [x xa]
  | .cwait xd _ => [x xd]
  | .osend _ xa _ => [x xa]
  | .orecv _ xa _ => [x xa]
  | .over a => [x a]
  | _ => []

/-- The registers that a slot word reads; a lane copy into a vector register reads its destination too (R55, R161). -/
def bodyReads (slot : Slot) (b : Body) : List RegId :=
  let src (n : BitVec 10) : RegId := match slot with
    | .k => .k n.toNat
    | .m => .a n.toNat
    | .v => .v n.toNat
    | .w => .w n.toNat
    | .x => .x n.toNat
  match b with
  | .op i => opReads slot i
  | .xcopy _ _ a => [src a]
  | .xcopyLane df d a _ => match df with
    | .v => [src a, .v d.toNat]
    | .w => [src a, .w d.toNat]
    | _ => [src a]
  | .xcopyBcast _ _ a => [src a]
  | _ => []

/-- A load's register and its base. -/
def memWrites (m : MemOp) (load : Option Nat) : List (RegId × Nat) :=
  (match load with
    | some l => [(memName m, l)]
    | none => []) ++ if m.post then [(.a m.base.toNat, 1)] else []

/-- The registers that a form of a slot of its own writes, each with its latency. -/
def opWrites (slot : Slot) (i : Instr) : List (RegId × Nat) :=
  let v (n : BitVec 10) : RegId := vecId (vfileOf slot) n.toNat
  let k (n : BitVec 5) : RegId := .k n.toNat
  let a_ (n : BitVec 5) : RegId := .a n.toNat
  let p_ (n : BitVec 4) : RegId := .p n.toNat
  let x (n : BitVec 4) : RegId := .x n.toNat
  match i with
  | .add d _ _ => [(k d, 1)]
  | .sub d _ _ => [(k d, 1)]
  | .and d _ _ => [(k d, 1)]
  | .or d _ _ => [(k d, 1)]
  | .xor d _ _ => [(k d, 1)]
  | .andn d _ _ => [(k d, 1)]
  | .shl d _ _ => [(k d, 1)]
  | .shr d _ _ => [(k d, 1)]
  | .sra d _ _ => [(k d, 1)]
  | .min d _ _ => [(k d, 1)]
  | .max d _ _ => [(k d, 1)]
  | .minn d _ _ => [(k d, 1)]
  | .maxn d _ _ => [(k d, 1)]
  | .mul d _ _ => [(k d, 3)]
  | .mulh d _ _ => [(k d, 3)]
  | .mulhn d _ _ => [(k d, 3)]
  | .div d _ _ => [(k d, 20)]
  | .divn d _ _ => [(k d, 20)]
  | .rem d _ _ => [(k d, 20)]
  | .remn d _ _ => [(k d, 20)]
  | .clz d _ => [(k d, 1)]
  | .ctz d _ => [(k d, 1)]
  | .popc d _ => [(k d, 1)]
  | .sel d _ _ _ => [(k d, 1)]
  | .addi d _ _ => [(k d, 1)]
  | .andi d _ _ => [(k d, 1)]
  | .ori d _ _ => [(k d, 1)]
  | .xori d _ _ => [(k d, 1)]
  | .shli d _ _ => [(k d, 1)]
  | .shri d _ _ => [(k d, 1)]
  | .srai d _ _ => [(k d, 1)]
  | .movi d _ => [(k d, 1)]
  | .muli d _ _ => [(k d, 3)]
  | .cmpEq pd _ _ => [(p_ pd, 1)]
  | .cmpNe pd _ _ => [(p_ pd, 1)]
  | .cmpLt pd _ _ => [(p_ pd, 1)]
  | .cmpLe pd _ _ => [(p_ pd, 1)]
  | .cmpLtn pd _ _ => [(p_ pd, 1)]
  | .cmpLen pd _ _ => [(p_ pd, 1)]
  | .cmpiEq pd _ _ => [(p_ pd, 1)]
  | .cmpiNe pd _ _ => [(p_ pd, 1)]
  | .cmpiLt pd _ _ => [(p_ pd, 1)]
  | .cmpiLe pd _ _ => [(p_ pd, 1)]
  | .cmpiLtn pd _ _ => [(p_ pd, 1)]
  | .cmpiLen pd _ _ => [(p_ pd, 1)]
  | .pand pd _ _ => [(p_ pd, 1)]
  | .por pd _ _ => [(p_ pd, 1)]
  | .pxor pd _ _ => [(p_ pd, 1)]
  | .pandn pd _ _ => [(p_ pd, 1)]
  | .pset _ => (List.range 15).map fun n => (.p (n + 1), 1)
  | .pget d => [(k d, 1)]
  | .call _ => [(.k 31, 1)]
  | .lidx d _ => [(k d, 1)]
  | .tick d => [(k d, 1)]
  | .scyc d => [(k d, 1)]
  | .phase d => [(k d, 1)]
  | .lkstat d => [(k d, 1)]
  | .csrr d _ => [(k d, 1)]
  | .csrw d _ _ _ => [(k d, 1)]
  | .csrs d _ _ _ => [(k d, 1)]
  | .csrc d _ _ _ => [(k d, 1)]
  | .aadd d _ _ => [(a_ d, 1)]
  | .asub d _ _ => [(a_ d, 1)]
  | .aaddi d _ _ => [(a_ d, 1)]
  | .ashli d _ _ => [(a_ d, 1)]
  | .amuli d _ _ => [(a_ d, 1)]
  | .amovi d _ => [(a_ d, 1)]
  | .ldb m => memWrites m (some 5)
  | .ldbn m => memWrites m (some 5)
  | .ldh m => memWrites m (some 5)
  | .ldhn m => memWrites m (some 5)
  | .ldw m => memWrites m (some 5)
  | .ldwn m => memWrites m (some 5)
  | .ldd m => memWrites m (some 5)
  | .ldv m _ => memWrites m (some 6)
  | .ldvs m _ _ => memWrites m (some 6)
  | .ldacc m => memWrites m (some 8)
  | .stb m => memWrites m none
  | .sth m => memWrites m none
  | .stw m => memWrites m none
  | .std m => memWrites m none
  | .stv m => memWrites m none
  | .stvs m _ => memWrites m none
  | .stvm m _ => memWrites m none
  | .fill file reg => [(vecId file reg.toNat, 6)]
  | .vadd d _ _ _ _ => [(v d, 2)]
  | .vsub d _ _ _ _ => [(v d, 2)]
  | .vmul d _ _ _ _ => [(v d, 3)]
  | .vmulh d _ _ _ _ => [(v d, 3)]
  | .vmin d _ _ _ _ => [(v d, 2)]
  | .vmax d _ _ _ _ => [(v d, 2)]
  | .vand d _ _ _ _ => [(v d, 2)]
  | .vor d _ _ _ _ => [(v d, 2)]
  | .vxor d _ _ _ _ => [(v d, 2)]
  | .vshl d _ _ _ _ => [(v d, 2)]
  | .vshr d _ _ _ _ => [(v d, 2)]
  | .vsra d _ _ _ _ => [(v d, 2)]
  | .vabs d _ _ _ => [(v d, 2)]
  | .vcmpEq d _ _ _ => [(v d, 2)]
  | .vcmpNe d _ _ _ => [(v d, 2)]
  | .vcmpLt d _ _ _ => [(v d, 2)]
  | .vcmpLe d _ _ _ => [(v d, 2)]
  | .vcmpGt d _ _ _ => [(v d, 2)]
  | .vcmpGe d _ _ _ => [(v d, 2)]
  | .vcmpUo d _ _ _ => [(v d, 2)]
  | .vcmpOrd d _ _ _ => [(v d, 2)]
  | .vsel d _ _ _ _ => [(v d, 2)]
  | .vdot4Ss d _ _ _ _ => [(v d, 3)]
  | .vdot4Su d _ _ _ _ => [(v d, 3)]
  | .vdot4Us d _ _ _ _ => [(v d, 3)]
  | .vdot4Uu d _ _ _ _ => [(v d, 3)]
  | .vaddi d _ _ _ => [(v d, 2)]
  | .vshli d _ _ _ => [(v d, 2)]
  | .vshri d _ _ _ => [(v d, 2)]
  | .vsrai d _ _ _ => [(v d, 2)]
  | .vmovi d _ _ => [(v d, 2)]
  | .vfadd d _ _ _ _ => [(v d, 4)]
  | .vfsub d _ _ _ _ => [(v d, 4)]
  | .vfmul d _ _ _ _ => [(v d, 4)]
  | .vfma d _ _ _ _ _ => [(v d, 4)]
  | .vfms d _ _ _ _ _ => [(v d, 4)]
  | .vfnma d _ _ _ _ _ => [(v d, 4)]
  | .vfmin d _ _ _ => [(v d, 2)]
  | .vfmax d _ _ _ => [(v d, 2)]
  | .vfcmpEq d _ _ _ => [(v d, 2)]
  | .vfcmpNe d _ _ _ => [(v d, 2)]
  | .vfcmpLt d _ _ _ => [(v d, 2)]
  | .vfcmpLe d _ _ _ => [(v d, 2)]
  | .vfcmpGt d _ _ _ => [(v d, 2)]
  | .vfcmpGe d _ _ _ => [(v d, 2)]
  | .vfcmpUo d _ _ _ => [(v d, 2)]
  | .vfcmpOrd d _ _ _ => [(v d, 2)]
  | .vfsgnCopy d _ _ _ => [(v d, 2)]
  | .vfsgnNcopy d _ _ _ => [(v d, 2)]
  | .vfsgnXor d _ _ _ => [(v d, 2)]
  | .vfsgnAbs d _ _ => [(v d, 2)]
  | .vfsgnNeg d _ _ => [(v d, 2)]
  | .vfrcp d _ _ => [(v d, 6)]
  | .vfrsq d _ _ => [(v d, 6)]
  | .vfexp2 d _ _ => [(v d, 8)]
  | .vflog2 d _ _ => [(v d, 8)]
  | .vfsqrt d _ _ _ => [(v d, 12)]
  | .vfdiv d _ _ _ _ => [(v d, 12)]
  | .vfactTanh d _ _ => [(v d, 8)]
  | .vfactSigm d _ _ => [(v d, 8)]
  | .vfactGelu d _ _ => [(v d, 8)]
  | .vfactSilu d _ _ => [(v d, 8)]
  | .vfcls d _ _ => [(v d, 2)]
  | .vcvt d _ _ _ _ _ => [(v d, 4)]
  | .vqblkB4 d _ _ _ => [(v d, 4)]
  | .vqblkB10 d _ _ _ => [(v d, 4)]
  | .vdqblkB4Bf24 d _ => [(v d, 4)]
  | .vdqblkB4Lo d _ => [(v d, 4)]
  | .vdqblkB4Hi d _ => [(v d, 4)]
  | .vdqblkB10Bf24 d _ => [(v d, 4)]
  | .vdqblkB10Lo d _ => [(v d, 4)]
  | .vdqblkB10Hi d _ => [(v d, 4)]
  | .vfrnd d _ _ _ => [(v d, 4)]
  | .vredAdd d _ _ => [(v d, 6)]
  | .vredMax d _ _ => [(v d, 6)]
  | .vredMin d _ _ => [(v d, 6)]
  | .vredAnd d _ _ => [(v d, 6)]
  | .vredOr d _ _ => [(v d, 6)]
  | .vredXor d _ _ => [(v d, 6)]
  | .vfredSum d _ _ => [(v d, 6)]
  | .vfredMax d _ _ => [(v d, 6)]
  | .vfredMin d _ _ => [(v d, 6)]
  | .vperm d _ _ _ => [(v d, 2)]
  | .vbcast d _ _ _ => [(v d, 2)]
  | .vslide d _ _ _ _ => [(v d, 2)]
  | .vzipLo d _ _ _ => [(v d, 2)]
  | .vzipHi d _ _ _ => [(v d, 2)]
  | .vzipEven d _ _ _ => [(v d, 2)]
  | .vzipOdd d _ _ _ => [(v d, 2)]
  | .vrng d _ => [(v d, 4)]
  | .vmov d _ => [(v d, 2)]
  | .xmovi d _ => [(x d, 1)]
  | .xaddi d _ _ => [(x d, 1)]
  | .chst _ xs => [(x xs, 1)]
  | .omclaim d => [(x d, 1)]
  | .mstat d => [(x d, 1)]
  | .qget o => [(x o.xd, 1)]
  | .qput o => [(x o.xd, 1)]
  | .qgath o => [(x o.xd, 1)]
  | .qatomAdd o => [(x o.xd, 1)]
  | .qatomMin o => [(x o.xd, 1)]
  | .qatomMax o => [(x o.xd, 1)]
  | .qatomMinn o => [(x o.xd, 1)]
  | .qatomMaxn o => [(x o.xd, 1)]
  | .qatomSwap o => [(x o.xd, 1)]
  | .qatomCas o => [(x o.xd, 1)]
  | .qatomAnd o => [(x o.xd, 1)]
  | .qatomOr o => [(x o.xd, 1)]
  | .qatomXor o => [(x o.xd, 1)]
  | .qtpop _ xd _ _ => [(x xd, 1)]
  | .qwait _ xd _ => [(x xd, 1)]
  | .coll _ xd => [(x xd, 1)]
  | .cwait xd _ => [(x xd, 1)]
  | _ => []

/-- The registers that a slot word writes. -/
def bodyWrites (slot : Slot) (b : Body) : List (RegId × Nat) :=
  let dst (df : DFile) (d : BitVec 10) : List (RegId × Nat) := match df with
    | .k => [(.k d.toNat, 2)]
    | .m => [(.a d.toNat, 2)]
    | .v => [(.v d.toNat, 2)]
    | .w => [(.w d.toNat, 2)]
    | .x => [(.x d.toNat, 2)]
    | .p => [(.p d.toNat, 2)]
  match b with
  | .op i => opWrites slot i
  | .xcopy df d _ => dst df d
  | .xcopyLane df d _ _ => dst df d
  | .xcopyBcast df d _ => dst df d
  | _ => []

/-- The bytes that a slot word's form withholds in a segment (Table 12.2). -/
def State.holdBytes (s : State) (b : Body) : Nat :=
  match b with
  | .op (.stb _) | .op (.sth _) | .op (.stw _) | .op (.std _) => 16
  | .op (.stv _) | .op (.stvm _ _) => 80
  | .op (.stvs _ _) => 256
  | .op (.spill f r) => ParkPlace.held (s.me.spillPlace f (s.me.regs.phys f r.toNat))
  | .op (.scfg _ _ _) | .op (.sbind _ _ _ _) | .op (.sfree _) | .op (.omrel _) => 16
  | .op (.mgo lra lrb _) => 16 * (Shadow.releases (s.tile s.here).array.shadow lra lrb).length
  | _ => 0

/-- A form whose K slot only the lead's values decide, in a gang member (R169). -/
def leadOnly (b : Body) : Bool :=
  match b with
  | .op (.loop _ _) | .op (.loopi _ _) | .op (.lexit _) | .op (.sleept _) | .op (.br _) | .op (.jmp _) | .op (.ret _) => true
  | _ => false

/-- END is read after the bundle's other slots (R189). -/
def isEnd (b : Body) : Bool :=
  match b with
  | .op (.endProg _) => true
  | _ => false

/-- A 0x01 of the form is raised only when its guard reads true (R16). -/
def runTimeIllegal (b : Body) : Bool :=
  match b with
  | .op .tret | .op .tretSkip | .esc _ | .op (.osend _ _ _) | .op (.orecv _ _ _) => true
  | _ => false

end Sys2Proof.Machine
end

