-- ==== Sys2Proof/Machine/Issue.lean ====
section
/-! DEFINITION. The issue of a bundle: its code, its causes in order, segments and snapshots, windows, and what the bundle's end
does (01 R21-R31, 02 R38-R47, R57, R64, 06 R140, 18 R349, R351, R353, R356, R357). -/

namespace Sys2Proof.Machine

/-! ## The bundle at the next address (R38-R43) -/

/-- A 0x02 of core `c`'s next bundle (R64). -/
def Core.codeTrap (x : Core) (reason : Nat) : TrapInfo := trapInfo 0x02 x.pc.toNat reason 0

/-- The next bundle's class-1 cause, or its bits and whether issue moves to the other half. -/
inductive Fetched where
  | bad (t : TrapInfo)
  | bits (b : Nat) (moves : Bool)

/-- The next bundle is the 129th of its run (R39). -/
def State.overrun (s : State) (c : Nat) : Bool :=
  let x := s.core c
  match x.mine with
  | none => false
  | some h =>
    let r := s.halfRun c h
    r.2 == .long && decide (r.1.length = 128) && x.origin.isNone &&
      decide ((r.1.getLast?.map fun a => (s.nextAddr c a).1) = some x.pc)

/-- Fetch core `c`'s next bundle at the present cycle (R64 class 1). A faulty target names the transfer in TINFO2 (R97). Log
entry 41: a target or a chain target whose halfword is a chain entry, or that the area cuts off, begins a run of no bundle and is
a 0x02 of reason 7; TINFO0 of the 0x0A of a chain target is its code address; TINFO2 follows R97 for a transfer's target and R64 for
every other; a bundle that stands ready in both halves issues from the executing one. -/
def State.fetch (s : State) (c : Nat) : Fetched :=
  let x := s.core c
  let ready (h : Option Half) : Bool := match s.inHalf c h x.pc with
    | some k => s.available h k
    | none => false
  if x.areaEnd then .bad (x.codeTrap 7)
  else match x.addrFault x.pc with
  | .bad => .bad { x.codeTrap 7 with t2 := (x.origin.map BitVec.toNat).getD 0 }
  | .fetch t1 => .bad (trapInfo 0x0A x.pc.toNat t1 ((x.origin.map BitVec.toNat).getD 0))
  | .none =>
    if s.overrun c then .bad (x.codeTrap 7)
    else match s.entry c x.pc with
      | .chain _ | .ends => .bad (x.codeTrap 7)
      | .marker r => if ready x.mine || ready x.other then .bad (x.codeTrap r) else .bad (x.codeTrap 5)
      | .bundle b _ =>
        if ready x.mine then .bits b false else if ready x.other then .bits b true else .bad (x.codeTrap 5)

/-! ## The slots of a bundle -/

/-- A valid slot as it is about to issue: its word, what the decoder reads, and its guard. -/
structure Ready where
  slot : Slot
  word : Nat
  op   : Except Reject SlotOp
  live : Bool

/-- The valid slots of a bundle with their guards; a gang member's K guard is the lead's (R169). -/
def State.slots (s : State) (c bits : Nat) (kGuard : Option Bool) : List Ready :=
  (validWords bits).map fun e =>
    let op := decodeSlot e.1 e.2
    let own := match op with
      | .ok o => (s.core c).regs.guard o.gn o.gp || (match o.body with
          | .ext _ => true
          | _ => false)
      | .error _ => false
    { slot := e.1, word := e.2, op := op, live := if e.1 = .k then kGuard.getD own else own }

/-- What a live slot holds. -/
def Ready.body (r : Ready) : Option Body :=
  match r.op with
  | .ok o => if r.live then some o.body else none
  | .error _ => none

/-- The physical register of a named one. -/
def Regs.resolve (r : Regs) : RegId → RegId
  | .v n => .v (r.phys .v n)
  | .w n => .w (r.phys .w n)
  | x => x

/-- The registers a live slot reads, its guard aside. -/
def State.readsOf (s : State) (c : Nat) (r : Ready) : List RegId :=
  match r.body with
  | some b =>
    let parked : List RegId := match b with
      | .op (.fill f n) => match (s.core c).regs.spillEntry f ((s.core c).regs.phys f n.toNat) with
        | some e => match e.place with
          | .reg p => [vecId (VFile.other f) p]
          | .mem _ => []
        | none => []
      | _ => []
    ((bodyReads r.slot b).map (s.core c).regs.resolve) ++ parked
  | none => []

/-- The registers a live slot writes, each with its latency. -/
def State.writesOf (s : State) (c : Nat) (r : Ready) : List (RegId × Nat) :=
  match r.body with
  | some b =>
    let parked : List (RegId × Nat) := match b with
      | .op (.spill f n) => match (s.core c).spillPlace f ((s.core c).regs.phys f n.toNat) with
        | some (.reg p) => [(vecId (VFile.other f) p, 4)]
        | _ => []
      | _ => []
    ((bodyWrites r.slot b).map fun e => ((s.core c).regs.resolve e.1, e.2)) ++ parked
  | none => []

/-- The guard predicate of a valid slot. -/
def Ready.guardReg (r : Ready) : List RegId :=
  match r.op with
  | .ok o => [.p o.gp.toNat]
  | .error _ => []

/-! ## The running bundle -/

/-- The latch of a bundle that issues now on core `c`. -/
def State.latchFor (s : State) (c : Nat) (addr : CodeAddr) (bits : Nat) (rs : List Ready) (follow : Option Follow) : Latch :=
  let h := decodeHeader (fld bits 0 64)
  let x := s.core c
  let live := rs.filter fun r => r.body.isSome && !(follow.isSome && decide (r.slot = .k) && (r.body.map leadOnly).getD false)
  let last := live.filter fun r => (r.body.map isEnd).getD false
  let first := live.filter fun r => !(r.body.map isEnd).getD false
  let s0 := { s with latch := { Latch.none with core := c } }
  { Latch.none with
    active := true, core := c, addr := addr, le := h.le, rt := h.rt, todo := (first ++ last).map fun r => (r.slot, r.word),
    exts := x.regs.exts, seq := x.seq + 1, need := live.foldl (fun n r => n + (r.body.map s0.holdBytes).getD 0) 0,
    shadow := x.regs.xfer, follow := follow }

/-- The slot `r` alone is running. -/
def State.running (s : State) (r : Ready) : State :=
  { s with latch := { s.latch with slot := r.slot, word := r.word, todo := [] } }

/-- The trap state of a core as the trap's details. -/
def Regs.lastTrap (r : Regs) : TrapInfo :=
  { cause := r.tcause.toNat, t0 := r.tinfo0.toNat, t1 := r.tinfo1.toNat, t2 := r.tinfo2.toNat, imp := r.imp }

/-- The cause that a slot's own form raises in a state whose latch is set; none where it runs. -/
def State.slotCauseOf (s : State) (r : Ready) : Option TrapInfo :=
  match r.op with
  | .error _ => some (trapInfo 0x01 r.word (slotNo r.slot) 0)
  | .ok o =>
    match o.body with
    | .esc _ => if s.me.hm then none else some (s.running r).illegal
    | b =>
      match runBody b (s.running r) with
      | .next t => if t.latch.active then none else some (t.core s.latch.core).regs.lastTrap
      | _ => none

/-- The 0x03 of a guarded-off optical form that stands behind a 0x01 which its guard keeps from being raised (R16, R173). -/
def State.hiddenPhase (s : State) (r : Ready) : Option TrapInfo :=
  match r.op with
  | .ok o => match o.body with
    | .op (.osend _ _ _) | .op (.orecv _ _ _) => s.exchangeForm
    | _ => none
  | .error _ => none

/-- The state after some slots have run, where all of them run. -/
def State.afterSlots (s : State) (rs : List Ready) : State :=
  rs.foldl (fun z r => match r.body with
    | none => z
    | some b => match runBody b (z.running r) with
      | .next t => if t.latch.active then t else z
      | _ => z) s

/-! ## Causes of classes 2 to 4 (R64) -/

/-- The payload bits that EXT gives to a word of a slot, by the word's opcode and TYPE; none where Table 2.8 does not list it. An
illegal field of a listed word is its 0x01, and no misuse of EXT (R49, R57). -/
def extBits (slot : Slot) (w : Nat) : Option Nat :=
  match slot, fld w 56 8 with
  | .k, 0x20 | .k, 0x21 | .k, 0x22 | .k, 0x23 | .k, 0x27 | .k, 0x28 => some 32
  | .k, 0x31 => some 40
  | .k, 0x45 => some 14
  | .m, 0x03 | .m, 0x05 | .m, 0x06 => some 32
  | .v, 0x11 | .v, 0x15 | .w, 0x11 | .w, 0x15 =>
    match readIType (fld w 5 3) with
    | .ok .i32 | .ok .n32 => some 9
    | _ => none
  | .x, 0x01 | .x, 0x02 => some 32
  | _, _ => none

/-- The pending extension of a slot is misused (R57). -/
def extMisused (rs : List Ready) (e : Slot × PendExt) : Bool :=
  match rs.find? fun r => decide (r.slot = e.1) with
  | none => true
  | some r => match extBits r.slot r.word with
    | none => true
    | some n => e.2.bad || decide (e.2.payload.toNat / 2 ^ n ≠ 0)

/-- The class-2 cause. -/
def State.headerCause (s : State) (c : Nat) (addr : CodeAddr) (bits : Nat) (rs : List Ready) : Option TrapInfo :=
  let h := decodeHeader (fld bits 0 64)
  let trap (reason t2 : Nat) : Option TrapInfo := some (trapInfo 0x02 addr.toNat reason t2)
  if h.reserved then trap 1 0
  else match rs.find? fun r => match r.op with
      | .error .reservedGuard => true
      | _ => false with
    | some r => trap 2 (slotNo r.slot)
    | none =>
      match allSlots.find? fun p => (s.core c).regs.exts.any fun e => decide (e.1 = p) && extMisused rs e with
      | some p => trap 3 (slotNo p)
      | none => if (s.core c).hm ∧ 2 ≤ rs.length then trap 8 h.sv.toNat else none

/-! ## Windows (R140, R296, R298) -/

/-- What the windows of a bundle lack. -/
inductive Lack where
  | nothing | beat | never
  deriving DecidableEq, Repr

/-- The window that a register read pops, or a write pushes: what it lacks when `n` pushes are asked. Each write of a bundle reserves
a unit of its own, also one that will lose under R23 (log entry 43). -/
def State.windowLack (s : State) (c : Nat) (r : RegId) (n : Nat) : Lack :=
  match s.bound c r with
  | none => .nothing
  | some (_, x, out) =>
    if out then
      if n = 0 then .nothing
      else if x.beats < x.reserved + n then .never
      else if x.written + 4 < x.reserved + n then .beat else .nothing
    else if 0 < n then .nothing
    else if x.beats ≤ x.popped then .never
    else if x.window.isEmpty then .beat else .nothing

/-- A window named in the wrong direction, or a lane copy into a bound register (R140). -/
def State.windowMisuse (s : State) (c : Nat) (r : Ready) : Bool :=
  let lane := match r.body with
    | some (.xcopyLane _ _ _ _) => true
    | _ => false
  ((s.readsOf c r).any fun g => match s.bound c g with
    | some (_, _, out) => out
    | none => false) ||
  ((s.writesOf c r).any fun g => match s.bound c g.1 with
    | some (_, _, out) => !out || lane
    | none => false)

/-- How often a bundle writes a register. -/
def State.pushes (s : State) (c : Nat) (rs : List Ready) (g : RegId) : Nat :=
  (rs.flatMap fun r => (s.writesOf c r).filter fun w => decide (w.1 = g)).length

/-- The windows a slot names that lack something: the register, the lack. -/
def State.slotLacks (s : State) (c : Nat) (rs : List Ready) (r : Ready) : List (RegId × Lack) :=
  (((s.readsOf c r).map fun g => (g, s.windowLack c g 0)) ++
    ((s.writesOf c r).map fun w => (w.1, s.windowLack c w.1 (s.pushes c rs w.1)))).filter fun e => decide (e.2 ≠ .nothing)

/-- The 0x05 of a slot's windows: reason 0 before reason 4 (Table 14.2). -/
def State.windowCause (s : State) (c : Nat) (ls : List (RegId × Lack)) : Option TrapInfo :=
  let pick := (ls.find? fun e => decide (e.2 = .beat)).orElse fun _ => ls.head?
  pick.map fun e =>
    let code := match e.1 with
      | .v n => regCode .v n
      | .w n => regCode .w n
      | _ => 0
    trapInfo 0x05 (((s.bound c e.1).map fun b => b.1).getD 0) (if e.2 = .beat then 0 else 4) code

/-! ## The scoreboard and the interlocks (R25, R351) -/

/-- A register in TINFO0[11:0] of a 0x04. -/
def scoreCode : RegId → Nat
  | .k n => n
  | .p n => 2 ^ 8 + n
  | .x n => 2 ^ 9 + n
  | .a n => 2 ^ 10 + n
  | .v n => 2 * 2 ^ 10 + n
  | .w n => 3 * 2 ^ 10 + n

/-- The latest landing of a write in flight to a register. -/
def Core.landing (x : Core) (now : Nat) (g : RegId) : Nat :=
  x.regs.flights.foldl (fun n f =>
    let hit := match f.dest with
      | .reg r => decide (r = g)
      | .push r _ _ => decide (r = g)
      | .flags => false
    if hit && decide (now < f.land) then max n f.land else n) 0

/-- The registers of a bundle with the cycles still missing. -/
def State.missing (s : State) (c : Nat) (rs : List Ready) : List (RegId × Nat) :=
  let x := s.core c
  let reads := (rs.flatMap fun r => r.guardReg ++ s.readsOf c r).filter fun g => !g.zero && (s.bound c g).isNone
  let early := reads.map fun g => (g, x.landing s.now g - s.now)
  let late := ((rs.flatMap (s.writesOf c)).filter fun w => !w.1.zero).map fun w => (w.1, x.landing s.now w.1 - (s.now + w.2))
  (early ++ late).filter fun e => decide (0 < e.2)

/-- The scoreboard's 0x04: the most cycles missing, then the lowest code. -/
def State.scoreCause (s : State) (c : Nat) (rs : List Ready) : Option TrapInfo :=
  let worst := (s.missing c rs).foldl (fun o e => match o with
    | none => some e
    | some w => if w.2 < e.2 ∨ (w.2 = e.2 ∧ scoreCode e.1 < scoreCode w.1) then some e else some w) (none : Option (RegId × Nat))
  worst.map fun e => trapInfo 0x04 (scoreCode e.1) e.2 0

/-- A handler bundle waits while a register that it reads or writes has a write in flight (R351). -/
def State.interlocked (s : State) (c : Nat) (rs : List Ready) : Bool :=
  let x := s.core c
  ((rs.flatMap fun r => r.guardReg ++ s.readsOf c r) ++ ((rs.flatMap (s.writesOf c)).map Prod.fst)).any fun g =>
    !g.zero && decide (s.now < x.landing s.now g)

/-! ## Deciding a bundle (R64, R349) -/

/-- What a core makes of its next bundle at the present cycle: it issues, waits a cycle without slipping, slips, or traps. -/
inductive Verdict where
  | go | wait | slip
  | trap (t : TrapInfo)

/-- The order of causes due on one cycle: the code, and for a 0x0E the slot, V before W (R139, R349). -/
def Pending.rank (p : Pending) : Nat := p.info.cause * 8 + if p.info.cause = 0x0E then p.info.t1 % 8 else 0

/-- The pending imprecise cause that is taken now (R349): the earliest due, then the first in rank. Of two NaN reports of one slot
that are due on one cycle the bundle that issued first is reported (log entry 43). -/
def Core.imprecise (x : Core) (now : Nat) : Option TrapInfo :=
  if x.hm then none
  else
    ((x.pending.filter fun p => decide (p.due ≤ now)).foldl (fun o p => match o with
      | none => some p
      | some q => if p.due < q.due ∨ (p.due = q.due ∧ p.rank < q.rank) then some p else some q)
      (none : Option Pending)).map fun p => p.info

/-- The bound on a slip (R21). -/
def Core.slipBound (x : Core) : Nat := if x.regs.strict then 0 else x.regs.slipmax.toNat

/-- LE acts in the bundle: it is no shadow, and its K slot neither transfers nor exits nor opens a loop (R28, R102). -/
def State.leActs (s : State) (c bits : Nat) (rs : List Ready) : Bool :=
  (decodeHeader (fld bits 0 64)).le && (s.core c).regs.xfer.isNone &&
    !(rs.any fun r => match r.body with
      | some (.op (.br _)) | some (.op (.jmp _)) | some (.op (.call _)) | some (.op (.ret _)) | some (.op (.lexit _))
      | some (.op (.loop _ _)) | some (.op (.loopi _ _)) => true
      | _ => false)

/-- The verdict on the bundle `bits` at `addr` of core `c`; `follow` is set in a gang's member. -/
def State.verdict (s : State) (c : Nat) (addr : CodeAddr) (bits : Nat) (follow : Option Follow) (kGuard : Option Bool) : Verdict :=
  let x := s.core c
  match x.imprecise s.now with
  | some t => .trap t
  | none =>
    let rs := s.slots c bits kGuard
    let s1 := { s with latch := s.latchFor c addr bits rs follow }
    let led (r : Ready) : Bool := follow.isSome && decide (r.slot = .k) && (r.body.map leadOnly).getD false
    let own (r : Ready) : Option TrapInfo :=
      if led r then none
      else if (r.body.map isEnd).getD false then
        (s1.afterSlots (rs.filter fun q => !(q.body.map isEnd).getD false)).slotCauseOf r
      else s1.slotCauseOf r
    let causes := rs.map fun r => (r, own r)
    let misuse (r : Ready) : Option TrapInfo := if s.windowMisuse c r then some (trapInfo 0x01 r.word (slotNo r.slot) 0) else none
    let illegal := causes.findSome? fun e =>
      firstCause [match e.2 with
        | some t =>
          let run := match e.1.op with
            | .ok o => runTimeIllegal o.body
            | .error _ => false
          if t.cause = 0x01 ∧ (e.1.live ∨ !run) then some t else none
        | none => none, misuse e.1]
    let phase := causes.findSome? fun e => match e.2 with
      | some t => if t.cause = 0x03 then some t
        else if t.cause = 0x01 ∧ !e.1.live then (s1.running e.1).hiddenPhase e.1 else none
      | none => none
    match firstCause [s.headerCause c addr bits rs, illegal, phase] with
    | some t => .trap t
    | none =>
      if x.hm && s.interlocked c rs then .wait
      else
        let lacks := rs.map fun r => s.slotLacks c rs r
        let slips := lacks.any fun l => l.any fun e => decide (e.2 = .beat)
        let q := x.slip.getD s.now
        if slips ∧ s.now < q + x.slipBound then .slip
        else
          let h := decodeHeader (fld bits 0 64)
          let stamp := if !x.hm ∧ !x.stampOff ∧ h.cstamp ≠ 0 ∧ h.cstamp.toNat ≠ s.scyc c % 2 ^ 24 then
              some (trapInfo 0x04 0xFFF h.cstamp.toNat (s.scyc c)) else none
          let score := if x.regs.chken ∧ !x.hm then s.scoreCause c rs else none
          let le := if s.leActs c bits rs ∧ x.regs.loops.isEmpty then some (trapInfo 0x08 1 0 0) else none
          let slots := causes.findSome? fun e =>
            firstCause [if e.1.live then e.2 else none, s.windowCause c (s.slotLacks c rs e.1)]
          match firstCause [stamp, score, le, slots] with
          | some t => .trap t
          | none => .go

/-! ## Segments and snapshots (R356, R357) -/

/-- The tile's part of a snapshot. -/
def State.tileSnap (s : State) (t : Nat) : TileSnap :=
  let x := s.tile t
  { claimed := (x.slots.filter fun e => x.claims e.1).map Prod.fst,
    descs := (List.range 6).map fun e => (s.engine t e).desc,
    windows := x.engines.flatMap fun e => e.2.all.map fun y =>
      { eng := e.1, run := y.id, popped := y.popped, pushed := y.pushed, unbound := y.unbound, masked := y.masked },
    shadow := x.array.shadow, vis := x.array.vis }

/-- The snapshot of core `c` at the present cycle. -/
def State.snapshot (s : State) (c : Nat) : Snap :=
  let x := s.core c
  { at_ := s.now, pc := x.pc, regs := x.regs, tile := s.tileSnap (tileOf c), pending := x.pending, segseq := x.segseq }

/-- The entry of a segment at the present cycle, before the entry bundle's effects. -/
def State.openSegment (s : State) (c : Nat) : State :=
  let s1 := s.closeSegment c
  let snap := s1.snapshot c
  s1.onCore c fun x => { x with
    segOpen := some (x.segNext + 1), segNext := x.segNext + 1, snaps := (x.segNext + 1, snap) :: x.snaps, entry := false,
    relSnap := if x.fresh then some snap else x.relSnap }

/-! ## Issue -/

/-- Pop the input windows that a bundle reads, each once (R140). -/
def State.popAll (s : State) (c : Nat) (rs : List Ready) : State × List (RegId × Vec) :=
  (rs.flatMap (s.readsOf c)).eraseDups.foldl (fun acc g =>
    match acc.1.bound c g with
    | some (e, x, false) => (acc.1.popWindow (tileOf c) e x, acc.2 ++ [(g, x.window.headD 0)])
    | _ => acc) (s, [])

/-- Reserve the space of the pushes of a bundle. -/
def State.reserveAll (s : State) (c : Nat) (rs : List Ready) : State :=
  (rs.flatMap (s.writesOf c)).foldl (fun z w =>
    match z.bound c w.1 with
    | some (e, x, true) => z.setXfer (tileOf c) e { x with reserved := x.reserved + 1 }
    | _ => z) s

/-- A form whose precise trap can come after its bundle has issued (R326, R332). -/
def Ready.retakes (r : Ready) : Bool :=
  match r.op with
  | .ok o => match o.body with
    | .op (.qwait _ _ _) | .op (.qgath _) => true
    | _ => false
  | .error _ => false

/-- The place of a register among the register files' words, in the order of Table 18.3 (log entry 47). -/
def RegId.place : RegId → Nat × Nat
  | .v n => (64 * n, 64)
  | .w n => (0xA000 + 64 * n, 64)
  | .k n => (0x14000 + 8 * n, 8)
  | .a n => (0x14100 + 8 * n, 8)
  | .x n => (0x14200 + 8 * n, 8)
  | .p _ => (0x14280, 8)

/-- What the issue of a bundle reads of the logic wafer's arrays: the registers that it names as sources, windows aside, and its place in
the loop buffer, each with its space (R373). -/
def State.arrayReads (s : State) (c : Nat) (addr : CodeAddr) (rs : List Ready) : List (Nat × Nat × Nat) :=
  let x := s.core c
  let regs := ((rs.flatMap fun r => r.guardReg ++ s.readsOf c r).eraseDups).filter fun g => !g.zero && (s.bound c g).isNone
  let buffer := match s.inHalf c x.mine addr with
    | some k => [(6, bitOf x.half * 6144 + 48 * k, 48)]
    | none => []
  (regs.map fun g => (1, x.coreNo * 2 ^ 17 + g.place.1, g.place.2)) ++ buffer

/-- The issue of a bundle reads the logic wafer's arrays: what it corrects, or the 0x18 of an error beyond correction (R367, R373). -/
def State.eccIssue (s : State) (c : Nat) (addr : CodeAddr) (rs : List Ready) : State :=
  let t := tileOf c
  if (s.tile t).errors.isEmpty then s
  else
    let reads := s.arrayReads c addr rs
    match reads.findSome? fun r => s.eccCause t r.1 r.2.1 r.2.2 with
    | some info => s.takeTrap c addr info
    | none => reads.foldl (fun z r => z.eccRead t r.1 r.2.1 r.2.2) s

/-- The bundle `bits` at `addr` issues on core `c` now: its segment, its windows and its latch. Log entry 41: a shadow that moves issue
to the other half starts the successor's expansion first, and the residency of its target is judged after that. -/
def State.startBundle (s : State) (c : Nat) (addr : CodeAddr) (bits : Nat) (moves : Bool) (follow : Option Follow)
    (kGuard : Option Bool) : State :=
  let h := decodeHeader (fld bits 0 64)
  let rs := s.slots c bits kGuard
  let x := s.core c
  let s0 := if moves then s.moveHalf c else s
  let s1 := s0.eccIssue c addr rs
  let s2 := match x.regs.xfer with
    | some t => if follow.isNone then s1.expand c t.target else s1
    | none => s1
  let s3 := if !x.hm ∧ x.segments ∧ (h.sg ∨ x.entry) then s2.openSegment c else s2
  let latch := s3.latchFor c addr bits rs follow
  let (s4, pops) := s3.popAll c rs
  let s5 := s4.reserveAll c rs
  if (s2.core c).status ≠ .running then s2
  else { (s5.onCore c fun y => { y with 
      seq := y.seq + 1, slip := none, served := false, pc := addr, fresh := false, sleepTo := none,
      before := if rs.any Ready.retakes then some { addr := addr, regs := x.regs, windows := (s2.tileSnap (tileOf c)).windows, quays := (s2.tile (tileOf c)).quays, tokens := (s2.tile (tileOf c)).tokens, bytes := [] } else none }) with
    latch := { latch with pops := pops } }

/-! ## Waits -/

/-- How a wait stands at the present cycle: it goes on, and may have sampled what it needs meanwhile (R326); it ends, with what its form does and the least cycles to the next
bundle; or its form traps (R332). -/
inductive Polled where
  | pending
  | more (s : State)
  | done (s : State) (after : Nat)
  | trap (t : TrapInfo)

/-- The form's wait is over. -/
def Polled.over : Polled → Bool
  | .done _ _ => true
  | _ => false

/-- Run a poll for core `c`. -/
def State.polling (s : State) (c : Nat) (f : State → Option State) : Option State :=
  (f { s with latch := { Latch.none with core := c } }).map fun t => { t with latch := s.latch }

/-- A wait's bound has come. -/
def Wait.late (w : Wait) (now : Nat) : Bool := (w.limit.map fun l => decide (l ≤ now)).getD false

/-- Poll a wait of core `c`. A form that acts at its wait's end holds issue until the next cycle, and what it waits for must come before
its bound; a wait that TRET resumed lets the bundle issue on the cycle of the act (R393), and must end before its bound as well. -/
def State.pollWait (s : State) (c : Nat) (w : Wait) : Polled :=
  let late := w.late s.now
  let done (t : State) (n : Nat) : Polled := if late && (w.again || decide (n ≠ 0)) then .pending else .done t (if w.again then 0 else n)
  let act (n : Nat) (o : Option State) : Polled := match o with
    | some t => done t n
    | none => .pending
  let pure_ (b : Bool) : Polled := if b then done s 0 else .pending
  let ph (n epoch : Nat) : Bool := match (s.core c).part with
    | some pid => decide (epoch < ((s.phaser pid n).member c).seen)
    | none => true
  match w.what with
  | .lock epoch _ => if ph 0 epoch then .done s 0 else .pending
  | .phaser n epoch => if ph n epoch then .done s 0 else .pending
  | .send ch src n off => act 1 (s.pollSend c ch src n off)
  | .recv ch need | .recvr ch need => pure_ (s.arrNow c ch need)
  | .stream e run => pure_ (s.streamDone c e run)
  | .nest lra lrb => act 1 (s.polling c fun z => z.pollNest c lra lrb)
  | .swap ticket => pure_ (s.swapDone c ticket)
  | .array => pure_ (s.arrayDone c)
  | .mred q _ => if late then .pending else pure_ (s.mredDone c q)
  | .quay q k xd =>
    match ({ s with latch := { Latch.none with core := c } } : State).pollQuay c q k xd w.word w.issued with
    | .issued t => done { t with latch := s.latch } (max 1 (w.issued + 1 + k.hold - s.now))
    | .waits t k1 =>
      if k1 = k then .pending
      else .more (({ t with latch := s.latch } : State).onCore c fun x => { x with
        waits := x.waits.map fun v => if v.slot = w.slot then { v with what := .quay q k1 xd } else v })
    | .trap t => .trap t
  | .token tid op xd => act 0 (s.polling c fun z => z.pollToken c tid op xd w.word w.issued)
  | .serial q n xd early =>
    match s.polling c fun z => z.pollSerial c q n xd with
    | some t => .done t 0
    | none =>
      let st := s.serialStatus (tileOf c) q n
      if early ∧ (st.bind QuayStatus.done).isNone ∧ (st.map fun x => x.promise).getD 0 + 1 ≤ s.now then .trap (s.missedInfo c q n)
      else .pending
  | .coll ticket xd => act 0 (s.polling c fun z => z.pollColl c ticket xd)
  | .osend och xa => act 1 (s.pollOsend c och xa)
  | .orecv och need => pure_ (s.pollOrecv c och need)

/-- The producer of a group lock with members on other modules: whether one of those is missing, and which, is free (log entry 3), and
it is named where its TID is lower than that of every one missing here, or none is missing here. -/
def State.farProducer (s : State) (c : Nat) (t : TrapInfo) : TrapInfo :=
  match (s.core c).part with
  | none => t
  | some pid =>
    let v := (Config.freeBits s.free).toNat
    let far := { t with t1 := fld v 0 14 * 2 ^ 32 + fld v 14 15 }
    if !s.remote pid then t
    else if (s.scopeOf pid).all fun p => ((s.phaser p 0).counted.all fun m => ((s.phaser p 0).arrival m).isSome) then far
    else if fld v 29 1 = 1 ∧ fld v 0 14 < t.t1 / 2 ^ 32 then far else t

/-- A trap of a wait in a group program uses up a free value. -/
def State.drawFar (s : State) (c : Nat) : State :=
  match (s.core c).part with
  | some pid => if s.remote pid then s.draw else s
  | none => s

/-- The 0x0F of a wait whose bound is exceeded (R182). -/
def State.waitInfo (s : State) (c : Nat) (w : Wait) : TrapInfo :=
  let t := tileOf c
  let info (kind obj producer : Nat) : TrapInfo := s.boundInfo w.slot kind obj producer w.bound
  let ph (n : Nat) : Nat := match (s.core c).part with
    | some pid => s.producer pid n
    | none => t
  let dest (ch : Nat) : Nat := (s.partOf c).abs (routeDest (s.route t ch))
  match w.what with
  | .lock _ _ => s.farProducer c (info 0 0 (ph 0))
  | .phaser n _ => if n = 0 then s.farProducer c (info 2 0 (ph 0)) else info 2 n (ph n)
  | .send ch _ _ _ => info 1 ch (dest ch)
  | .recv ch _ => info 1 ch (dest ch)
  | .recvr ch _ => info 1 ch (s.treeProducer c ch)
  | .stream e _ => info 4 e t
  | .nest _ _ | .swap _ | .array => info 5 0 t
  | .mred l acc => info 5 acc (s.mredProducer c l)
  | .quay q _ _ => info 3 q t
  | .token _ _ _ => info 3 (fld w.word 49 2) t
  | .serial q _ _ _ => info 3 q t
  | .coll ticket _ => info 6 ticket (s.collProducer c ticket)
  | .osend och _ => info 7 och t
  | .orecv och _ => { info 7 (och % 2 ^ 7) t with t1 := s.orecvProducer c och }

/-- A wait whose end is an event of its own, and needs no polling. -/
def Wait.evented (w : Wait) : Bool := w.what.evented

/-- A gang's member, which follows its lead (R168). -/
def Core.follows (x : Core) : Bool := decide (x.gsize ≠ 0) && decide (x.pos ≠ 0)

/-- The next bundle of core `c` may issue from cycle `base`: in the lead it is scheduled, and a member keeps the cycle. -/
def State.nextAt (s : State) (c base : Nat) (served : Bool) : State :=
  let s1 := s.onCore c fun x => { x with waits := [], served := x.served || served, due := max x.due base }
  let x := s1.core c
  if x.follows then s1
  else s1.post (x.due + s1.nextWait c) rankIssue (.bundleIssue c x.gen none)

/-- Core `c`'s wait `w` is over, and holds its next bundle until cycle `till`. -/
def State.dropWait (s : State) (c : Nat) (w : Wait) (till : Nat) : State :=
  s.onCore c fun x => { x with
    waits := x.waits.filter fun v => decide (v.slot ≠ w.slot), due := max x.due till }

/-- `g` prevails over `f` where both land on one destination on one cycle: the later bundle's, then the slot's order (R23). -/
def Flight.over (g f : Flight) : Bool :=
  decide (f.seq < g.seq) || (decide (f.seq = g.seq) && decide (g.prio < f.prio))

/-- A write in flight reaches its register or the sticky flags. -/
def Regs.land (r : Regs) (f : Flight) : Regs :=
  match f.dest with
  | .flags => { r with fflags := r.fflags ||| f.val.setWidth 5 }
  | .reg g => r.put g f.val
  | .push _ _ _ => r

/-- Registers on which every write in flight that is due has landed, the last on each register alone. -/
def Regs.settle (r : Regs) (now : Nat) : Regs :=
  let due := r.flights.filter fun f => decide (f.land ≤ now)
  due.foldl (fun z f =>
      if due.any fun g => decide (g.dest = f.dest) && decide (f.dest ≠ .flags) && (decide (f.land < g.land) || (decide (f.land = g.land) && g.over f))
      then z else z.land f)
    { r with flights := r.flights.filter fun f => decide (now < f.land) }

/-! ## Windows back at a position (R140, R361) -/

/-- A window back at a position; `flying` pushes are still on their way to it. -/
def Transfer.rewound (x : Transfer) (now popped pushed flying : Nat) (unbound masked : Bool) : Transfer :=
  let n := x.gone.length - (x.popped - popped)
  let y := { x with
    window := x.gone.drop n ++ x.window, gone := x.gone.take n, popped := popped, pushed := pushed,
    reserved := pushed + flying, unbound := unbound, masked := masked }
  match x.bind with
  | .sgo => { x with masked := masked }
  | .input _ _ => { y with done := if x.beats ≤ x.read then (x.done.orElse fun _ => some now) else none }
  | .output _ _ =>
    { y with written := min x.written pushed, done := if x.beats ≤ min x.written pushed then x.done else none }

/-- A transfer of engine `e` at the position that some windows give it, with the pushes that the registers hold in flight; what the
windows do not know was started after them. -/
def Transfer.asIn (x : Transfer) (ws : List WinSnap) (r : Regs) (now e : Nat) : Transfer :=
  match ws.find? fun w => decide (w.eng = e ∧ w.run = x.id) with
  | some w => x.rewound now w.popped w.pushed (r.pushes e x.id).length w.unbound w.masked
  | none => x.rewound now 0 0 0 false true

/-- Windows with the pushes among the registers' flights that have landed by `now`. -/
def Undo.landed (u : Undo) (now : Nat) : List WinSnap :=
  u.windows.map fun w => { w with pushed := w.pushed + ((u.regs.pushes w.eng w.run).filter fun f => decide (f.land ≤ now)).length }

/-- A core's windows as they would be without the bundle issued last: it pops and pushes nothing, and what its pushes have written is
written back (R140). -/
def State.retakeWindows (s : State) (c : Nat) (u : Undo) : State :=
  let t := tileOf c
  let ws := u.landed s.now
  let s1 := (s.core c).engines.foldl (fun z e =>
    let new := (z.engine t e).all.map fun y =>
      if ws.any fun w => decide (w.eng = e ∧ w.run = y.id) then y.asIn ws (u.regs.settle s.now) s.now e else y
    (z.setEngine t e { z.engine t e with xfer := new.head?, past := new.drop 1 }).dropEvents fun v => match v.ev with
      | .windowOutputWrite t1 e1 r1 b _ => decide (t1 = t ∧ e1 = e) && new.any fun y => decide (r1 = y.id) && decide (y.pushed ≤ b)
      | _ => false) s
  u.bytes.foldl (fun z b => z.sideWrite t b.1 [b.2]) s1

/-- A gather of core `c` that the bundle issued last had put into queue `q` was never issued: the queue's counts, its status and its token
store are as before it. -/
def State.retakeQuay (s : State) (c : Nat) (u : Undo) (q : Nat) (k : QuayTask) : State :=
  let t := tileOf c
  let x := s.quay t q
  let old := Table.get QuayQueue.reset u.quays q
  let s1 := s.setQuay t q { x with
    serial := old.serial, access := old.access, getV := old.getV,
    status := match Table.get none old.status k.serial with
      | some st => Table.put x.status k.serial (some st)
      | none => Table.drop x.status k.serial }
  if k.tw then s1.setTokens t k.tid ((Table.get [] u.tokens k.tid).take 1 ++ (s1.tile t).store4 k.tid) else s1

/-- The bundle issued last is suppressed whole after all: the registers, the windows and the quay queues are as before it (R348). -/
def State.retake (s : State) (c : Nat) : State :=
  match (s.core c).before with
  | none => s
  | some u =>
    let ks := (s.core c).waits.filterMap Wait.heldTask
    let s1 := (s.giveUp c ks).retakeWindows c u
    let s2 := (ks.filter fun e => e.2.1.start.isSome).foldl (fun z e => z.retakeQuay c u e.1 e.2.1) s1
    s2.onCore c fun x => { x with regs := u.regs.settle s.now, waits := [], pc := u.addr, before := none }

/-- A precise trap of the bundle issued last (R326, R332): an imprecise cause that is due is taken in its place (R349). -/
def State.trapBefore (s : State) (c : Nat) (t : TrapInfo) : State :=
  match (s.core c).imprecise s.now with
  | some i => s.takeTrap c (s.core c).pc i
  | none => (s.retake c).takeTrap c ((s.retake c).core c).pc t

/-- Each of a core's waits in turn, as it stands this cycle. -/
def State.pollEach (s : State) (c : Nat) : List Wait → State
  | [] => s
  | w :: ws =>
    match s.pollWait c w with
    | .pending => s.pollEach c ws
    | .more t => t.pollEach c ws
    | .done t n => (t.dropWait c w (s.now + n)).pollEach c ws
    | .trap t => s.trapBefore c t

/-- Poll a core's waits: its next bundle may issue once none is left. -/
def State.pollStep (s : State) (c : Nat) : State :=
  let s1 := s.pollEach c (s.core c).waits
  let x := s1.core c
  if x.gen ≠ (s.core c).gen then s1
  else if x.waits.isEmpty then s1.nextAt c s.now false
  else if x.waits.any fun w => !w.evented then s1.post (s.now + 1) rankIssue (.bundleIssue c x.gen none)
  else s1

/-- A release that core `c` observes now may end a wait of its. -/
def State.tellWaits (s : State) (c : Nat) : State :=
  let ws := (s.core c).waits.filter fun w => w.evented && (s.pollWait c w).over
  let s1 := ws.foldl (fun z w => z.dropWait c w s.now) s
  if !ws.isEmpty && (s1.core c).waits.isEmpty then s1.nextAt c s.now false else s1

/-- WAIT_BOUND_EXCEEDED (R181): the trap is taken in place of the bundle after the form, and the wait stays pending; an imprecise
cause that is due is taken in its place (R349). In a gang the lead takes it, for every member (R352). -/
def execWaitBoundExceeded (core gen slot : Nat) (s : State) : Host.Outcome State Fault Refusal :=
  .next (
    let x := s.core core
    if x.gen ≠ gen ∨ x.status ≠ .running then s
    else match x.waits.find? fun w => decide (w.slot = slot) && decide (w.limit = some s.now) with
      | none => s
      | some w =>
        match s.pollWait core w with
        | .pending =>
          if x.gsize = 0 then (s.drawFar core).takeTrap core x.pc ((x.imprecise s.now).getD (s.waitInfo core w))
          else if x.pos = 0 then s.post s.now w.what.boundRank (.bundleIssue core gen (some .bound))
          else s
        | _ => s)

/-- Learn the cycle at which a wait traps, and schedule the trap. -/
def State.setLimit (s : State) (c : Nat) (w : Wait) (limit : Nat) : State :=
  (s.onCore c fun x => { x with
    waits := x.waits.map fun v => if v.slot = w.slot then { v with limit := some limit } else v }).boundAt c limit w.slot w.what

/-! ## The end of a bundle (R24, R27-R31, R107) -/

/-- The outcome of an LE that acts (R27). -/
def loopOutcome (r : Regs) (rt : Bool) : LoopOutcome :=
  match r.loops with
  | [] => .none
  | l :: _ =>
    if 2 ≤ l.count.toNat then .body rt
    else if rt ∧ 1 ≤ r.epicnt.toNat then .drain
    else .exit

/-- The predicates after a stage advance, and the writes in flight to p8 to p15 one rung up (R31). -/
def Regs.climb (r : Regs) (f : Bool) : Regs :=
  let top := [15, 14, 13, 12, 11, 10, 9].foldl (fun p n => setPred p n (r.p.getLsbD (n - 1))) r.p
  { r with
    p := setPred top 8 f,
    flights := r.flights.filterMap fun g => match g.dest with
      | .reg (.p n) => if n < 8 then some g else if n < 15 then some { g with dest := .reg (.p (n + 1)) } else none
      | _ => some g }

/-- The stage advance (R31). -/
def Regs.advance (r : Regs) (f : Bool) : Regs :=
  let back (rot rr : Nat) : Nat := if rot = 0 then rr else (rr + 8 * rot - 1) % (8 * rot)
  { r.climb f with rrbv := back r.rotv r.rrbv, rrbw := back r.rotw r.rrbw }

/-- What an outcome does to the innermost level and to EPICNT; `held` keeps the advance from happening (R107). A drain pass
lowers EPICNT all the same, which then takes what the K slot writes to it (DESIGN CHOICE, log entry 41: R107 discards the updates
of the stage advance, and R27 lowers EPICNT beside it). -/
def Regs.close (r : Regs) (o : LoopOutcome) (held : Bool) : Regs :=
  match o, r.loops with
  | .body rt, l :: ls =>
    let r1 := { r with loops := { l with count := l.count - 1, index := l.index + 1 } :: ls }
    if rt ∧ !held then r1.advance true else r1
  | .drain, l :: ls =>
    let r1 := { r with loops := { l with index := l.index + 1 } :: ls }
    if held then { r1 with epicnt := r.epicnt - 1 } else { r1.advance false with epicnt := r.epicnt - 1 }
  | .exit, _ :: ls => { r with loops := ls }
  | _, _ => r

/-- LE's outcome in the bundle that ends. -/
def State.outcome (s : State) : LoopOutcome :=
  let l := s.latch
  let idle := match l.loops with
    | .none => true
    | _ => false
  match l.follow with
  | some (.run _ _ _ o _ _) => o
  | _ => if l.le && l.taken.isNone && l.jump.isNone && l.shadow.isNone && idle then loopOutcome s.me.regs l.rt else .none

/-- The registers at the end of the bundle. -/
def State.endRegs (s : State) : Regs :=
  let l := s.latch
  let r := s.me.regs
  let held := l.csrs.any fun w => csrRotates w.num
  let r1 := r.close s.outcome held
  let r2 := match l.follow with
    | some (.run _ _ ls _ _ _) => { r1 with loops := ls }
    | _ => match l.loops with
      | .none => r1
      | .push x => { r1 with loops := x :: r1.loops }
      | .pop => { r1 with loops := r1.loops.tail }
  let r3 := if l.csrs.any fun w => decide (w.num = 0x023) then r2 else { r2 with rngctr := r2.rngctr + BitVec.ofNat 64 l.draws }
  let r4 := l.csrs.foldl (fun z w => z.csrWrite w.num w.val) r3
  let taken := match l.follow with
    | some (.run _ _ _ _ _ t) => t
    | _ => l.taken
  { r4 with exts := l.given, xfer := taken.map fun t => { target := t, origin := l.addr } }

/-- The next address, the transfer that named it (none for a loop-back), and whether the area ends before it. -/
def State.successor (s : State) (o : LoopOutcome) : CodeAddr × Option CodeAddr × Bool :=
  let l := s.latch
  match l.shadow, l.jump, o, s.me.regs.loops with
  | some x, _, _, _ => (x.target, some x.origin, false)
  | none, some t, _, _ => (t, some l.addr, false)
  | none, none, .body _, top :: _ => (top.start, none, false)
  | none, none, .drain, top :: _ => (top.start, none, false)
  | none, none, _, _ =>
    let n := s.nextAddr l.core l.addr
    (n.1, none, n.2)

/-- The members of a lead's gang, the lead left out. -/
def State.members (s : State) (c : Nat) : List Nat :=
  let x := s.core c
  if x.gsize = 0 ∨ x.pos ≠ 0 then [] else ((gangTiles x.gsize (tileOf c)).map fun t => 2 * t + c % 2).filter fun m => decide (m ≠ c)

/-- Tell a lead's members what they do POS cycles on. -/
def State.tellMembers (s : State) (c rank : Nat) (f : Nat → Follow) : State :=
  (s.members c).foldl (fun z m =>
    z.post (s.now + (z.core m).pos) rank (.bundleIssue m (z.core m).gen (some (f m)))) s

/-- TRET (R353): the return from a handler. -/
def State.leaveHandler (s : State) (c : Nat) (skip : Bool) : State :=
  let x := s.core c
  let tpc := x.regs.tpc
  let after := s.nextAddr c tpc
  let (pc, origin, ends, xfer) := if skip then
      match x.savedXfer with
      | some t => (t.target, some t.origin, false, none)
      | none => (after.1, none, after.2, none)
    else (tpc, none, false, x.savedXfer)
  let waits := x.savedWaits.map fun w => { w with again := true, limit := some (s.now + 8 + 16 * w.bound + 1) }
  let s1 := s.onCore c fun y => { y with
    regs := { y.regs with exts := if skip then [] else y.savedExts, xfer := xfer },
    hm := false, hmEnd := s.now + 1, entry := true, pc := pc, origin := origin, areaEnd := ends, savedExts := [], savedXfer := none, savedWaits := [],
    waits := waits, served := !skip, due := s.now + 8, slip := none }
  let s2 := if x.follows then s1 else s1.expand c pc
  if waits.isEmpty then (if x.follows then s2 else s2.post (s.now + 8 + s2.nextWait c) rankIssue (.bundleIssue c x.gen none))
  else waits.foldl (fun z w => z.boundAt c (s.now + 8 + 16 * w.bound + 1) w.slot w.what)
    (s2.post (s.now + 8) rankIssue (.bundleIssue c x.gen none))

/-- END has issued: nothing further issues, and the arrival is made once the pending work is complete (R190). Forms of its bundle that
act at the end of a wait still do. -/
def State.endIssue (s : State) (c d : Nat) (waits : List Wait) : State :=
  let s1 := s.closeSegment c
  let s2 := (s1.onCore c fun x => { x with
    status := .ended, endAt := some d, gen := x.gen + 1, pending := [],
    waits := (waits.filter fun w => !w.evented).map fun w => { w with limit := none } }).post d rankAfter (.endArrival c d)
  if (s2.core c).waits.isEmpty then s2 else s2.post (s.now + 1) rankIssue (.bundleIssue c (s2.core c).gen none)

/-- The waits of END's bundle, as they stand this cycle. -/
def State.pollEnded (s : State) (c : Nat) : State :=
  let s1 := (s.core c).waits.foldl (fun z w => match z.pollWait c w with
    | .done t _ => t.dropWait c w z.now
    | _ => z) s
  if (s1.core c).waits.isEmpty then s1 else s1.post (s.now + 1) rankIssue (.bundleIssue c (s1.core c).gen none)

/-- What the lead's K guard reads; an EXT is pending whatever its guard (R57). -/
def State.kGuardOf (s : State) (c bits : Nat) : Bool :=
  (s.slots c bits none).any fun r => decide (r.slot = .k) && r.live

/-- Every slot has run: the bundle ends. -/
def State.finishBundle (s : State) : State :=
  let l := s.latch
  let c := l.core
  let o := s.outcome
  let next := s.successor o
  let regs := s.endRegs
  let kg := s.kGuardOf c ((s.bundleAt c l.addr).getD 0)
  let s1 := s.tellMembers c rankIssue fun _ => .run l.addr kg regs.loops o (s.link.setWidth 32) l.taken
  let s2 := { s1 with latch := Latch.none }
  let s3 := s2.onCore c fun x => { x with regs := regs }
  if l.ended then s3.endIssue c (s.endTime c) l.waits
  else match l.tret with
    | some skip => s3.leaveHandler c skip
    | none =>
      let s4 := s3.onCore c fun x => { x with
        pc := next.1, origin := next.2.1, areaEnd := next.2.2, waits := l.waits, due := s.now + 1 + l.hold }
      let loops := l.jump.isSome || (match o with
        | .body _ | .drain => l.shadow.isNone
        | _ => false)
      let s5 := if loops ∧ l.follow.isNone then s4.expand c next.1 else s4
      if l.waits.isEmpty then s5.nextAt c (s.now + 1 + l.hold) false
      else if l.waits.any fun w => !w.evented then s5.post (s.now + 1) rankIssue (.bundleIssue c (s5.core c).gen none)
      else s5

/-! ## Issue of a core on its own (R21, R349) -/

/-- A precise or imprecise trap in place of the next bundle. -/
def State.trapNext (s : State) (c : Nat) (t : TrapInfo) : State :=
  s.takeTrap c (s.core c).pc { t with imp := t.imp && !(s.core c).hm }

/-- A slip begins or goes on: the next cycle tries again, and the slip's end traps (R21). -/
def State.slipOn (s : State) (c : Nat) : State :=
  let x := s.core c
  let s1 := if x.slip.isNone then
      (s.onCore c fun y => { y with slip := some s.now }).post (s.now + x.slipBound) rankIssue (.slipTimeout c x.gen) else s
  s1.post (s.now + 1) rankIssue (.bundleIssue c x.gen none)

/-- A gang's part in a trap (R352): a cause of the bundle issued last, whose entry has bit 8 set, suppresses that bundle. -/
def State.takeGang (s : State) (c : Nat) (addr : CodeAddr) (t : TrapInfo) (entry : Nat) : State :=
  if 0x100 ≤ entry then (s.retake c).takeTrapAs c ((s.retake c).core c).pc t (entry % 0x100) else s.takeTrapAs c addr t entry

/-- A member's part of the bundle or of the trap that its lead decided. -/
def State.followLead (s : State) (c : Nat) (f : Follow) : State :=
  match f with
  | .trap addr info entry => s.takeGang c addr info entry
  | .bound => s
  | .run addr kg _ _ _ _ =>
    let lead := 2 * (gangTiles (s.core c).gsize (tileOf c)).headD 0 + c % 2
    s.startBundle c addr ((s.bundleAt lead addr).getD 0) false (some f) (some kg)

/-- A trap that stands before the code of the next bundle: an imprecise cause that is due, else the 0x1C of a repeated mismatch, which
never arises beside it (R349, R363). -/
def Core.dueCause (x : Core) (now : Nat) : Option TrapInfo := (x.imprecise now).orElse fun _ => x.forced

/-- The bundle of a core without a gang, or of a lead whose members need nothing. -/
def State.issueAlone (s : State) (c : Nat) : State :=
  let x := s.core c
  match x.dueCause s.now with
  | some t => (s.onCore c fun y => { y with forced := none }).trapNext c t
  | none =>
    match s.fetch c with
    | .bad t => s.trapNext c t
    | .bits b moves =>
      match s.verdict c x.pc b none none with
      | .trap t => s.trapNext c t
      | .wait => s.post (s.now + 1) rankIssue (.bundleIssue c x.gen none)
      | .slip => s.slipOn c
      | .go => s.startBundle c x.pc b moves none none

/-- The core's tile is in a sheaf or zone move and does not issue (R379). -/
def State.moving (s : State) (c : Nat) : Bool :=
  (s.tile (tileOf c)).move == .waiting || (s.tile (tileOf c)).move == .holding

/-- The issue of a core as it decides it alone. -/
def State.issuePlain (s : State) (core gen : Nat) (follow : Option Follow) : State :=
  let x := s.core core
  if x.gen = gen ∧ x.status = .ended then (if x.waits.isEmpty then s else s.pollEnded core)
  else if x.gen ≠ gen ∨ x.status ≠ .running then s
  else match follow with
    | some f => s.followLead core f
    | none =>
      if !x.waits.isEmpty then s.pollStep core
      else if x.follows || decide (s.now < x.due) || s.moving core then s else s.issueAlone core

/-- SLIP_TIMEOUT (R21): a bundle that still lacks its beat or its space traps; where it lacks nothing now, it issues at its own
step of this cycle. -/
def execSlipTimeout (core gen : Nat) (s : State) : Host.Outcome State Fault Refusal :=
  .next (
    let x := s.core core
    if x.gen ≠ gen ∨ x.status ≠ .running ∨ x.slip.isNone ∨ x.gsize ≠ 0 then s
    else match s.fetch core with
      | .bad _ => s
      | .bits b _ => match s.verdict core x.pc b none none with
        | .trap t => if t.cause = 0x05 then s.trapNext core t else s
        | _ => s)

/-- HANDLER_ENTRY (R349, R434): the handler's run, whose expansion began when the trap was taken 16 cycles ago, and its first
bundle is due, after its WAIT. -/
def execHandlerEntry (core gen : Nat) (s : State) : Host.Outcome State Fault Refusal :=
  .next (
    let x := s.core core
    if x.gen ≠ gen ∨ x.status ≠ .running ∨ x.follows then s
    else (s.expandFrom core (s.now - 16) x.pc).post (s.now + s.nextWait core) rankIssue (.bundleIssue core gen none))

end Sys2Proof.Machine
end

