-- ==== Sys2Proof/Machine/Commit.lean ====
section
/-! DEFINITION. What follows the issue of a bundle: results land, stores perform, segments commit, and a mismatch of the
protected pair rewinds a segment or reruns an exchange phase; the mirrors of a round lock (01 R22, R23, 18 R355-R367). -/

namespace Sys2Proof.Machine

/-! ## Landings (R22, R23, R83, R140) -/

/-- A write in flight lands; among those due on its destination only the one that prevails is kept. -/
def State.land (s : State) (c : Nat) (due : List Flight) (f : Flight) : State :=
  let lost := due.any fun g => decide (g.dest = f.dest) && g.over f
  match f.dest with
  | .flags => s.onCore c fun x => { x with regs := { x.regs with fflags := x.regs.fflags ||| f.val.setWidth 5 } }
  | .reg r => if lost then s else s.onCore c fun x => { x with regs := x.regs.put r f.val }
  | .push _ e run =>
    match (s.engine (tileOf c) e).run run with
    | none => s
    | some x =>
      if lost then s.unreserve (tileOf c) e x else s.pushWindow (tileOf c) e x f.val

/-- RESULT_LANDING: every write of core `core` whose cycle has come lands. -/
def execResultLanding (core : Nat) (s : State) : Host.Outcome State Fault Refusal :=
  .next (
    let due := (s.core core).regs.flights.filter fun f => decide (f.land ≤ s.now)
    let s1 := s.onCore core fun x =>
      { x with regs := { x.regs with flights := x.regs.flights.filter fun f => decide (s.now < f.land) } }
    due.foldl (fun z f => z.land core due f) s1)

/-! ## Stores and commits (R127, R129, R249, R358-R360) -/

/-- A segment has not committed. -/
def Core.uncommitted (x : Core) (seg : Nat) : Bool := x.snaps.any fun e => decide (e.1 = seg)

/-- STORE_PERFORM: the bytes reach the withhold buffer while their segment is uncommitted, else the bank. -/
def execStorePerform (core seg : Nat) (bytes : List (Nat × Byte)) (s : State) : Host.Outcome State Fault Refusal :=
  .next (
    if (s.core core).uncommitted seg then
      s.onCore core fun x => { x with
        overlay := (bytes.reverse.map fun b => (b.1, b.2, seg)) ++
          x.overlay.filter fun e => !(decide (e.2.2 = seg) && bytes.any fun b => decide (b.1 = e.1)) }
    else s.bankWrite (tileOf core) bytes)

/-- What a transfer's window has popped that no snapshot may ask back is forgotten. -/
def State.trimGone (s : State) (c : Nat) : State :=
  let x := s.core c
  let oldest := (x.snaps.getLast?.map Prod.snd).orElse fun _ => if x.phase % 2 = 1 then x.relSnap else none
  let since (ws : List WinSnap) (e : Nat) (y : Transfer) : Nat := match ws.find? fun w => decide (w.eng = e ∧ w.run = y.id) with
    | some w => y.popped - w.popped
    | none => y.popped
  let keep (e : Nat) (y : Transfer) : Nat :=
    max ((oldest.map fun n => since n.tile.windows e y).getD 0) ((x.before.map fun u => since u.windows e y).getD 0)
  s.onTile (tileOf c) fun t => { t with
    engines := Table.mapped Engine.reset (fun e g =>
      let trim (y : Transfer) := { y with gone := y.gone.drop (y.gone.length - keep e y) }
      { g with xfer := g.xfer.map trim, past := if x.snaps.isEmpty then [] else g.past.map trim }) t.engines }

/-! ## Rewinding (R361) -/

/-- The writes in flight that a snapshot holds, at their remaining distances from `restart`. -/
def Snap.flights (n : Snap) (restart : Nat) : List Flight :=
  n.regs.flights.map fun f => { f with land := f.land - n.at_ + restart }

/-- Landings for what is in flight on a core. -/
def State.postLandings (s : State) (c : Nat) : State :=
  (s.core c).regs.flights.foldl (fun z f => z.post f.land rankLand (.resultLanding c)) s

/-- A transfer of an engine as a snapshot has it. -/
def Snap.transfer (n : Snap) (now e : Nat) (x : Transfer) : Transfer := x.asIn n.tile.windows n.regs now e

/-- An engine at a rewind: what the mismatching bundle or a later one started is cancelled, the transfers before it return; a window
returns to its position. -/
def State.rewindEngine (s : State) (t : Nat) (n : Snap) (issued e : Nat) : State :=
  let g := s.engine t e
  let d := (n.tile.descs[e]?).getD Desc.reset
  let old := g.all.filter fun x => decide (x.start < issued)
  let new := old.map (n.transfer s.now e)
  let s1 := (s.setEngine t e { g with desc := d, xfer := new.head?, past := new.drop 1 }).dropEvents fun v => match v.ev with
    | .windowOutputWrite t1 e1 r1 b _ => decide (t1 = t ∧ e1 = e) && new.any fun y => decide (r1 = y.id) && decide (y.pushed ≤ b)
    | _ => false
  match old, new with
  | x :: _, y :: _ => match x.bind with
    | .input _ _ =>
      if x.unbound ∧ !y.unbound then
        (s1.post (s.now + 1) rankSample (.streamBeat t e x.id x.read .read)).post (s.now + 1) rankStream
          (.windowBeatEntry t e x.id x.entered)
      else s1
    | _ => s1
  | _, _ => s1

/-- The array at a rewind. -/
def State.rewindArray (s : State) (t : Nat) (n : Snap) (issued : Nat) : State :=
  s.onArray t fun y =>
    let nests := y.nests.filter fun k => decide (k.commit < issued)
    let clears := y.clears.filter fun k => decide (k.issued < issued)
    let ends := nests.map fun k => k.start + k.steps * k.time
    { y with
      shadow := n.tile.shadow, vis := n.tile.vis, swaps := [], nests := nests, clears := clears,
      freeAt := if nests.length = y.nests.length then y.freeAt else ends.foldl max 0,
      lastW := (ends.map (· + 6) ++ clears.map Clear.due).foldl max y.wrote }

/-- The slots of operand memory at a rewind: the claimed set of the snapshot, and what older segments withhold. -/
def State.rewindSlots (s : State) (t : Nat) (n : Snap) (held : List Held) : State :=
  let freed := held.flatMap fun h => match h.item with
    | .release ns => ns
    | _ => []
  s.onTile t fun x => { x with
    released := freed,
    slots := (List.range 32).foldl (fun z k =>
      if n.tile.claimed.contains k then Table.set .free z k .claimed
      else if x.slot k = .claimed ∧ !freed.contains k then Table.set .free z k .free else z) x.slots }

/-- An MRED of the mismatching bundle or a later one is taken back (R316). -/
def State.rewindMred (s : State) (c issued : Nat) : State :=
  let sheaf := (sheafTiles (tileOf c)).headD 0
  let r := s.mredOf sheaf
  let mine (a : Nat × Nat × Nat × Nat) : Bool := decide (a.2.1 = c) && decide (issued ≤ a.2.2.2 + (s.core c).pos)
  if r.arrived.any mine then
    let s1 := (s.setMred sheaf { arrived := r.arrived.filter fun a => !mine a, q := none, rows := [] }).dropEvents fun v => match v.ev with
      | .mredMerge h _ _ => decide (h = sheaf)
      | _ => false
    let back (w : Wait) : Wait := match w.what with
      | .mred _ acc => { w with what := .mred none acc }
      | _ => w
    r.arrived.foldl (fun z a => z.onCore a.2.1 fun x => { x with waits := x.waits.map back, savedWaits := x.savedWaits.map back }) s1
  else s

/-- The arrival that core `c` has made from cycle `entry` on is taken back: its phasers stand as before it, and a release that it brought
is due no more (R361). -/
def State.rewindArrival (s : State) (c entry : Nat) : State :=
  match (s.core c).came, (s.core c).part with
  | some (at_, phs), some pid =>
    if at_ < entry then s
    else phs.foldl (fun z e =>
      let pids := z.phaserScope pid e.1
      let z1 := z.setPhaser pid e.1 { z.phaser pid e.1 with
        members := Table.set Member.none (z.phaser pid e.1).members c e.2.1,
        arrivals := Table.set none (z.phaser pid e.1).arrivals c e.2.2 }
      let z2 := pids.foldl (fun y p => y.setPhaser p e.1 { y.phaser p e.1 with release := none }) z1
      z2.dropEvents fun v => match v.ev with
        | .lockRelease p 0 none | .roundCopy p => decide (e.1 = 0) && pids.contains p
        | .phaserRelease p n none => decide (n = e.1) && pids.contains p
        | _ => false) s
  | _, _ => s

/-- The withhold buffer is filled anew: errors of what it held are gone. -/
def Tile.freshBuffer (x : Tile) : Tile := { x with errors := x.errors.filter fun e => decide (e.1 / 2 ^ 32 ≠ 5) }

/-- An imprecise cause that the registers' own work raised: a rewind makes it again. -/
def Pending.again (p : Pending) : Bool := decide (p.info.cause = 0x0E)

/-- Rewind core `c` to the entry of segment `seg`: its bundle issues again at `restart` (R361). -/
def State.rewindCore (s : State) (c seg : Nat) (n : Snap) (issued restart : Nat) : State :=
  let t := tileOf c
  let x := s.core c
  let held := x.held.filter fun h => decide (h.seg < seg)
  let s1 := (List.range 6).foldl (fun z e => z.rewindEngine t n issued e) s
  let s2 := (((s1.rewindArray t n issued).rewindSlots t n held).rewindMred c issued).rewindArrival c n.at_
  let s3 := s2.dropEvents fun v => match v.ev with
    | .storePerform c1 n1 _ => decide (c1 = c) && decide (seg ≤ n1)
    | .segmentCommit c1 n1 => decide (c1 = c) && decide (seg ≤ n1)
    | _ => false
  let causes := x.pending ++ (if x.hm then x.dropped else [])
  let s4 := s3.onCore c fun y => { y with
    regs := { n.regs with flights := n.flights restart },
    status := .running, hm := false, gen := y.gen + 1, waits := [], savedExts := [], savedXfer := none, savedWaits := [],
    arriving := none, came := none, endAt := none, sleepTo := none, before := none,
    pending := (n.pending.filter Pending.again).map (fun p => { p with due := p.due - n.at_ + restart }) ++
      (causes.filter fun p => !p.again),
    pc := n.pc, origin := none, areaEnd := false, due := restart, served := true, slip := none, entry := true,
    segOpen := none, snaps := y.snaps.filter fun e => decide (e.1 < seg), held := held,
    overlay := y.overlay.filter fun e => decide (e.2.2 < seg),
    startLog := y.startLog.filter fun e => decide (e.seg < seg),
    replay := ((y.startLog.filter fun e => decide (seg ≤ e.seg)) ++ y.replay).filter fun e => decide (e.at_ < issued),
    mismatchSeg := y.segNext + 1, stampOff := true }
  let s5 := ((s4.postLandings c).expand c n.pc).onTile t Tile.freshBuffer
  if x.follows then s5 else s5.post restart rankIssue (.bundleIssue c (s5.core c).gen none)

/-- The cores that share core `c`'s stream, `c` alone where it has no gang. -/
def State.gangOf (s : State) (c : Nat) : List Nat :=
  let x := s.core c
  if x.gsize = 0 then [c] else (gangTiles x.gsize (tileOf c)).map fun t => 2 * t + c % 2

/-- The uncommitted segment of a core that holds a bundle issued at a cycle. -/
def Core.segmentAt (x : Core) (issued : Nat) : Option (Nat × Snap) := x.snaps.find? fun e => decide (e.2.at_ ≤ issued)

/-- Rewind every member of core `c`'s gang to the entry of the segment of the bundle issued at `issued` (R355, R361). A member
that has not reached the entry only forgets the bundles from there on. -/
def State.rewind (s : State) (c issued : Nat) (snap : Snap) : State :=
  let p := (s.core c).pos
  (s.gangOf c).foldl (fun z m =>
    let q := (s.core m).pos
    let entry := snap.at_ - p + q
    match (s.core m).snaps.find? fun e => decide (e.2.at_ = entry) with
    | some (seg, n) => z.rewindCore m seg n (issued - p + q) (s.now - p + 24 + q)
    | none => z.dropEvents fun v => match v.ev with
      | .bundleIssue m1 _ (some _) => decide (m1 = m) && decide (entry ≤ v.at_)
      | _ => false) s

/-! ## Reruns (R364) -/

/-- Cycles from the mismatch to the restart. -/
def Part.rerunDelay (p : Part) : Nat := if p.hdr.gcount = 0 then 1024 else 8192

/-- A rerun of the phase of a partition begins: no release of the phase's lock is due any more. -/
def State.beginRerun (s : State) (pid : Nat) : State :=
  let r := s.now + (s.part pid).rerunDelay
  let s1 := (s.dropEvents fun v => match v.ev with
    | .lockRelease p _ _ => decide (p = pid)
    | .roundCopy p => decide (p = pid)
    | _ => false).onPart pid fun p => { p with rerun := some s.now }
  let s2 := s1.setPhaser pid 0 { s1.phaser pid 0 with release := none }
  ((s2.post (s.now + 16) rankRelease (.rerunRestart pid)).post (s.now + 64) rankRelease (.rerunRestart pid)).post r rankRelease
    (.rerunRestart pid)

/-- A flit's step in a partition, or one of its lanes' steps. -/
def flitOf (ts : List Nat) (e : Event) : Bool :=
  match e with
  | .flitLinkEntry f | .flitWrite f | .treeResultWrite f => ts.contains f.src || ts.contains f.dest
  | .treeMerge t _ _ _ | .fragmentAck t _ _ _ => ts.contains t
  | .opticalFlitDeparture t m _ => ts.contains t && (decide (m < 2 ^ 32) || decide (m = bufferMark))
  | .opticalFlitWrite f => ts.contains (laneTile f.lane)
  | .opticalAck t _ => ts.contains t
  | _ => false

/-- Every flit of a partition is discarded, and every message that its lanes have queued (R364, R413). -/
def State.discardFlits (s : State) (pid : Nat) : State :=
  let ts := (s.part pid).tiles
  let s1 := (s.dropEvents fun v => flitOf ts v.ev).dropHeld ts
  let s2 := ts.foldl (fun z t => z.onTile t fun x => { x with lane := x.lane.discard }) s1
  { s2 with waiting := s2.waiting.filter fun e => !ts.contains (e.1 / 8) }

/-- The channel and optical state of a phase is as at the release. -/
def Tile.freshPhase (x : Tile) : Tile :=
  { x with
    chans := [], outs := [], wroteAt := [],
    opts := Table.mapped OptChan.reset (fun _ o =>
      { o with arr := 0, lastAt := 0, lastN := 0, sent := 0, stale := 0, late := false }) x.opts }

/-- A core restarts its exchange phase at `r` + POS (R364). -/
def State.restartCore (s : State) (c r : Nat) : State :=
  let x := s.core c
  let at_ := r + x.pos
  let n := x.relSnap.getD (s.snapshot c)
  let s1 := (List.range 6).foldl (fun z e =>
    (z.engine (tileOf c) e).all.foldl (fun z y =>
      if n.tile.windows.any fun w => decide (w.eng = e ∧ w.run = y.id) then z.setXfer (tileOf c) e (n.transfer s.now e y) else z) z) s
  let s2 := s1.onCore c fun y => { y with
    regs := { n.regs with flights := n.flights at_ },
    status := .running, hm := false, gen := y.gen + 1, waits := [], savedExts := [], savedXfer := none, savedWaits := [],
    arriving := none, came := none, endAt := none, sleepTo := none, before := none,
    pending := (n.pending.map fun p => { p with due := p.due - n.at_ + at_ }) ++ (y.pending.filter fun p => !p.again),
    relAt := at_, pc := n.pc, origin := none, areaEnd := false, due := at_, served := true, slip := none, entry := true,
    segOpen := none, snaps := [], held := [], overlay := [], startLog := [], replay := y.startLog ++ y.replay,
    segseq := n.segseq, fresh := true,
    forced := if 2 ≤ y.mismatches then some (trapInfo 0x1C y.sigcnt y.mismatchAt.toNat n.pc.toNat) else none }
  let s3 := ((s2.postLandings c).expand c n.pc).onTile (tileOf c) Tile.freshBuffer
  if x.follows then s3 else s3.post at_ rankIssue (.bundleIssue c (s3.core c).gen none)

/-- RERUN_RESTART: every tile stops at m + 16, the flits in flight at m + 64 are discarded, and the phase begins again at its
restart tick in every core that has not left by END in an earlier phase (R190, R364). -/
def execRerunRestart (pid : Nat) (s : State) : Host.Outcome State Fault Refusal :=
  .next (
    let p := s.part pid
    match p.rerun with
    | none => s
    | some m =>
      if s.now = m + 16 then
        p.cores.foldl State.keepHeld s
      else if s.now = m + 64 then s.discardFlits pid
      else if s.now = m + p.rerunDelay then
        let s1 := p.tiles.foldl (fun z t => z.onTile t Tile.freshPhase) s
        let x := s1.phaser pid 0
        let s2 := s1.setPhaser pid 0 { x with
          arrivals := [], members := Table.mapped Member.none (fun _ m => { m with arr := m.seen }) x.members }
        let s3 := s2.onPart pid fun q => { q with rerun := none }
        (x.members.filter fun e => e.2.mode.isSome).foldl (fun z e => z.restartCore e.1 s.now) s3
      else s)

/-! ## Mismatches (R355, R361, R363, R364) -/

/-- A mismatch of core `core` at `addr`, found now, which leaves standing what bundles before cycle `issued` began: a replay of segment
`seg` in a compute phase, a rerun in an exchange phase, a double trap where the mismatching bundle is a handler's. -/
def State.mismatchIn (s : State) (core : Nat) (addr : CodeAddr) (issued : Nat) (seg : Option (Nat × Snap)) (handler : Bool) : State :=
  let x := s.core core
  let s1 := s.onCore core fun y => { y with sigcnt := (y.sigcnt + 1) % 2 ^ 32 }
  match x.part with
  | some pid =>
    if handler then
      (s1.onCore core fun y => { y with hm := true }).takeTrap core addr
        (trapInfo 0x1C ((x.sigcnt + 1) % 2 ^ 32) addr.toNat x.entryAddr.toNat)
    else if x.phase % 2 = 1 then
      let count (n : Nat) := if (s.part pid).rerun.isSome then max n 1 else n + 1
      let s2 := s1.onCore core fun y => { y with mismatches := count y.mismatches, mismatchAt := addr }
      let s3 := if 2 ≤ count x.mismatches then s2.onTile (tileOf core) fun t => { t with pairTest := true } else s2
      if (s.part pid).rerun.isSome then s3 else (s.scopeOf pid).foldl State.beginRerun s3
    else
      match seg with
      | none => s1
      | some (_, snap) =>
        let s2 := s1.rewind core issued snap
        let n := x.mismatches + 1
        let s3 := s2.onCore core fun y => { y with
          mismatches := n, mismatchAt := addr,
          forced := if 2 ≤ n then some (trapInfo 0x1C ((x.sigcnt + 1) % 2 ^ 32) addr.toNat snap.pc.toNat) else y.forced }
        if 2 ≤ n then s3.onTile (tileOf core) fun t => { t with pairTest := true } else s3
  | none => s1

/-- A mismatch of core `core` in the bundle at `addr` that issued at `issued`. -/
def State.mismatch (s : State) (core : Nat) (addr : CodeAddr) (issued : Nat) : State :=
  let x := s.core core
  let seg := x.segmentAt issued
  s.mismatchIn core addr issued seg ((x.hm && seg.isNone) || (decide (issued < x.hmEnd) && decide (s.now ≤ issued + 3)))

/-- SIGNATURE_MISMATCH of the bundle at `addr` that issued at `issued`, found three cycles on (R355). -/
def execSignatureMismatch (core : Nat) (addr : CodeAddr) (issued : Nat) (s : State) : Host.Outcome State Fault Refusal :=
  .next (
    let x := s.core core
    if x.split ∨ x.part.isNone ∨ x.status = .stopped ∨ s.now ≠ issued + 3 then s else s.mismatch core addr issued)

/-! ## Commits (R358-R360, R367) -/

/-- A withheld byte of a segment has an error beyond correction in the withhold buffer (R367). -/
def State.heldError (s : State) (c seg : Nat) : Bool :=
  !(s.tile (tileOf c)).errors.isEmpty && (s.core c).overlay.any fun e =>
    decide (e.2.2 = seg) && (s.eccCause (tileOf c) 5 e.1 1).isSome

/-- The errors of the withhold buffer that a commit corrects. -/
def State.eccHeld (s : State) (c seg : Nat) : State :=
  if (s.tile (tileOf c)).errors.isEmpty then s
  else (s.core c).overlay.foldl (fun z e => if e.2.2 = seg then z.eccRead (tileOf c) 5 e.1 1 else z) s

/-- SEGMENT_COMMIT (R358-R360): the withheld items of the segment leave; an error beyond correction among them acts as a mismatch that
rewinds to the segment's entry, after every bundle of the segment has compared equal (R367). -/
def execSegmentCommit (core seg : Nat) (s : State) : Host.Outcome State Fault Refusal :=
  .next (
    let x := s.core core
    if !x.uncommitted seg then s
    else if s.heldError core seg then
      let n := x.snaps.find? fun e => decide (e.1 = seg)
      s.mismatchIn core ((n.map fun e => e.2.pc).getD x.pc) (s.now - 3) n false
    else
      let mine := x.held.filter fun h => decide (h.seg = seg)
      let bytes := (x.overlay.filter fun e => decide (e.2.2 = seg)).reverse.map fun e => (e.1, e.2.1)
      let s1 := (s.eccHeld core seg).onTile (tileOf core) fun t => { t with store := Memory.writeAll t.store bytes }
      let s2 := mine.foldl (fun z h => match h.item with
        | .release ns => z.startDrain (tileOf core) 0 ns
        | _ => z) s1
      let s3 := s2.onCore core fun y => { y with
        overlay := y.overlay.filter fun e => decide (e.2.2 ≠ seg),
        held := y.held.filter fun h => decide (h.seg ≠ seg),
        startLog := if y.phase % 2 = 0 then y.startLog.filter fun e => decide (seg < e.seg) else y.startLog,
        snaps := y.snaps.filter fun e => decide (e.1 ≠ seg),
        mismatches := if y.phase % 2 = 0 ∧ y.mismatchSeg ≤ seg then 0 else y.mismatches,
        segseq := (y.segseq + 1) % 2 ^ 32 }
      s3.trimGone core)

/-! ## Round locks (R365) -/

/-- The first region of a KIND. -/
def regionKind (rs : List Region) (k : Nat) : Option Region := rs.find? fun r => decide (r.size ≠ 0) && decide (r.kind = k)

/-- The base of a core's lading region, and of its mirror-reserve. -/
def Core.lading (x : Core) : Nat := ((regionKind x.regions 1).map fun r => r.base).getD 0
def Core.mirror (x : Core) : Nat := ((regionKind x.regions 5).map fun r => r.base).getD 0

/-- The buddy of a tile (R365). -/
def Part.buddy (p : Part) (t : Nat) : Nat := p.abs ((p.ly t + p.height) % (2 * p.height) * 128 + p.lx t)

/-- Every tile's lading, in its own mirror and in its buddy's. -/
def State.copyLadings (s : State) (pid : Nat) : State :=
  let p := s.part pid
  let n := p.hdr.lading
  if n = 0 then s
  else p.tiles.foldl (fun z t =>
    let bytes := s.storeBytes t (s.core (2 * t)).lading n
    let b := p.buddy t
    let z1 := z.eccUse (2 * t) t 0 [((s.core (2 * t)).lading, n)]
    (z1.bankWrite t (atAddr (s.core (2 * t)).mirror bytes)).bankWrite b (atAddr ((s.core (2 * b)).mirror + n) bytes)) s

/-- ROUND_COPY, as it ends. -/
def execRoundCopy (pid : Nat) (s : State) : Host.Outcome State Fault Refusal := .next (s.copyLadings pid)

end Sys2Proof.Machine
end

