-- ==== Sys2Proof/Machine/Repair.lean ====
section
/-! DEFINITION. Repair of the wafer: row tests, tile retirement and the sheaf shift, zone retirement and loss, the monitors, and
self-tests (19 R372-R388, 20 R391-R393). -/

namespace Sys2Proof.Machine

/-! ## Physical and logical places (R165, Table 1.8) -/

/-- The field of a physical tile in the PTID layout: 6 × field column + field row; its sheaf column and row. -/
def fieldOf (p : Nat) : Nat := fld p 12 3 * 6 + fld p 9 3
def sheafCol (p : Nat) : Nat := fld p 5 4
def sheafRow (p : Nat) : Nat := fld p 2 3

def State.spare (s : State) (fcol : Nat) : Nat := Table.get 5 s.spareRow fcol

/-- The logical zone row that a physical field row serves; none for the spare. -/
def State.zoneRow (s : State) (fcol frow : Nat) : Option Nat :=
  if frow = s.spare fcol then none else some (if frow < s.spare fcol then frow else frow - 1)

/-- The tiles of the logical sheaf at column `j` and row `srow` of a zone. -/
def sheafAt (fcol zrow srow j : Nat) : List Nat := gangTiles 1 ((zrow * 16 + 2 * srow) * 128 + fcol * 16 + 2 * j)

/-- The tiles of a logical zone. -/
def zoneTiles (fcol zrow : Nat) : List Nat :=
  (List.range 16).flatMap fun y => (List.range 16).map fun x => (zrow * 16 + y) * 128 + fcol * 16 + x

/-- The partition that holds a tile. -/
def State.owner (s : State) (t : Nat) : Option Nat := (s.core (2 * t)).part

/-- The logical zone row that some tiles see in a physical field row: the spare holds the present row of a zone move for the partitions
that have released it (R383). -/
def State.servedRow (s : State) (fcol frow : Nat) : Option Nat :=
  (s.zoneRow fcol frow).orElse fun _ => match Table.get none s.zones fcol with
    | some z => if z.seen.isEmpty then none else z.rows.head?
    | none => none

/-- The logical tile at a physical place, where one is. -/
def State.logicalTile (s : State) (p : Nat) : Option Nat :=
  match s.servedRow (fieldOf p / 6) (fieldOf p % 6) with
  | none => none
  | some z =>
    let m := s.mask (fieldOf p / 6) (fieldOf p % 6) (sheafRow p)
    (((List.range 8).find? fun j => decide (shiftCol m j = sheafCol p)).bind fun j =>
      (sheafAt (fieldOf p / 6) z (sheafRow p) j)[fld p 0 2]?).filter fun t => decide (s.ptid t = p)

/-- Change the map: MAPVER rises by 1 (R165). -/
def State.mapChange (s : State) : State := { s with mapver := (s.mapver + 1) % 2 ^ 32 }

def State.setMask (s : State) (field srow m : Nat) : State := { s with deadMask := Table.set 0 s.deadMask (field * 8 + srow) m }.mapChange

def State.shift (s : State) (field srow : Nat) : Option Shift := Table.get none s.shifts (field * 8 + srow)
def State.setShift (s : State) (field srow : Nat) (x : Option Shift) : State :=
  { s with shifts := Table.set none s.shifts (field * 8 + srow) x }
def State.zone (s : State) (fcol : Nat) : Option ZoneMove := Table.get none s.zones fcol
def State.setZone (s : State) (fcol : Nat) (x : Option ZoneMove) : State := { s with zones := Table.set none s.zones fcol x }

/-- A placed partition is still there. -/
def State.placed (s : State) (pid : Nat) : Bool := decide ((s.part pid).status ≠ .none)

/-- RETIRE commands whose retirement is complete let their queues go on: the final step's map has taken effect, or the zone retirement
that the command caused is complete (R387). -/
def State.retireDone (s : State) : State :=
  (List.range 16).foldl (fun z q =>
    match (z.queue q).block with
    | .retire p zone =>
      if (z.shift (fieldOf p) (sheafRow p)).isNone ∧ (!zone ∨ (z.zone (fieldOf p / 6)).all fun x => decide (x.failed ≠ fieldOf p % 6)) then
        z.unblock q
      else z
    | _ => z) s

/-! ## The loss of the module (R382, R386) -/

/-- The module is lost: every tile stops, and the command processor serves nothing more. -/
def State.loseModule (s : State) : State := { s.parts.foldl (fun z e => z.stopPart e.1) s with lost := true }

/-! ## Moves of a sheaf or a zone (R379, R380, R383, R392) -/

/-- The engines of a tile are idle, or its cores have stopped: their engines start nothing more (R354, R384). -/
def State.tileIdle (s : State) (t : Nat) : Bool :=
  (s.halted (2 * t) && s.halted (2 * t + 1)) || ((s.tile t).engines.all fun e => !e.2.busy) && (s.tile t).array.quiescent && s.collsDone t &&
    !(s.mreds.any fun e => e.2.arrived.any fun a => decide (tileOf a.2.1 = t))

/-- A tile begins to hold at c0, until f. -/
def State.holdTile (s : State) (t f : Nat) : State := s.onTile t fun x => { x with move := .holding, moveEnd := f }

/-- A logical tile stands on another physical tile: that one has met no errors, and nothing of it is queued or marked (R376, R395). -/
def State.newPlace (s : State) (t : Nat) : State := s.onTile t fun x => { x with eccTicks := [], testRows := [], errors := [], marked := none }

/-- A tile resumes at its new position: its cores issue again. -/
def State.resumeTile (s : State) (t : Nat) : State :=
  let s1 := (s.newPlace t).onTile t fun x => { x with move := .moved }
  [2 * t, 2 * t + 1].foldl (fun z c =>
    let x := z.core c
    if x.status = .running ∧ !x.follows ∧ x.waits.isEmpty ∧ x.due + z.nextWait c ≤ z.now then
      z.post z.now rankIssue (.bundleIssue c x.gen none)
    else z) s1

def State.setMove (s : State) (ts : List Nat) (m : MoveState) : State := ts.foldl (fun z t => z.onTile t fun x => { x with move := m }) s

/-- The cycles of a sheaf step's copy and of a zone's. -/
def stepCycles : Nat := 70912
def zoneCycles : Nat := 1130496

/-! ## The sheaf shift (R378, R379) -/

/-- The tiles that a shift's present step moves. -/
def State.stepTiles (s : State) (field srow : Nat) (x : Shift) : List Nat :=
  match s.servedRow (field / 6) (field % 6) with
  | none => []
  | some z => sheafAt (field / 6) z srow (8 - x.step)

/-- A shift's present step begins: at once, or in its partition's next forced exchange phase. -/
def State.beginStep (s : State) (field srow : Nat) : State :=
  match s.shift field srow with
  | none => s
  | some x =>
    match ((s.stepTiles field srow x).head?).bind s.owner with
    | none =>
      (s.setShift field srow (some { x with owner := none, begun := false, copying := true })).post (s.now + stepCycles) rankAfter
        (.shiftCopyEnd field srow x.step)
    | some pid =>
      (s.setShift field srow (some { x with owner := some pid, begun := false, copying := false })).onPart pid fun p => { p with forced := true }

/-! ## Zone retirement (R382-R384) -/

/-- A zone's present move begins. -/
def State.beginZone (s : State) (fcol : Nat) : State :=
  match s.zone fcol with
  | none => s
  | some z =>
    let r := z.rows.headD 0
    let pids := (((zoneTiles fcol r).filterMap s.owner).eraseDups).filter fun p => !z.restore.contains p
    let z1 := { z with pids := pids, begun := [], seen := [], copying := pids.isEmpty }
    let s1 := pids.foldl (fun y p => y.onPart p fun q => { q with forced := true }) (s.setZone fcol (some z1))
    if pids.isEmpty then s1.post (s.now + zoneCycles) rankAfter (.zoneCopyEnd fcol r) else s1

/-- The moves of a column are complete: the failed row is the spare, and it is tested, or dead when its zone is lost; the
partitions that touched a lost zone are restored. -/
def State.finishZone (s : State) (fcol : Nat) : State :=
  match s.zone fcol with
  | none => s
  | some z =>
    let field := fcol * 6 + z.failed
    let zrow := (s.zoneRow fcol z.failed).getD 0
    let s1 := s.setZone fcol none
    let s2 := if s.spare fcol = z.failed then s1 else { s1 with spareRow := Table.set 5 s1.spareRow fcol z.failed }.mapChange
    let s3 := if z.lost then { s2 with deadFields := field :: s2.deadFields }
      else s2.draw.post (s.now + 2400000) rankAfter (.selftestComplete 16 3 (fcol * 2 ^ 12 + z.failed * 2 ^ 9) (Config.testFails s2.free))
    (z.restore.foldl (fun y p => y.post y.now rankAfter (.roundRestore p (some (fcol, zrow)))) s3).retireDone

/-- A move's map takes effect, and the next move begins. -/
def State.zoneStep (s : State) (fcol : Nat) : State :=
  match s.zone fcol with
  | none => s
  | some z =>
    let old := s.fieldRow fcol (z.rows.headD 0)
    let s1 := ({ s with spareRow := Table.set 5 s.spareRow fcol old }.mapChange).setZone fcol (some { z with rows := z.rows.tail })
    let s2 := if z.rows.tail.isEmpty then s1.finishZone fcol else s1.beginZone fcol
    s2.shifts.foldl (fun y e => match e.2 with
      | some x => if e.1 / 48 = fcol ∧ !x.copying then y.beginStep (e.1 / 8) (e.1 % 8) else y
      | none => y) s2

/-- The contents of a lost zone are gone, and the partitions that touch it stop; their numbers. -/
def State.dropZone (s : State) (fcol zrow : Nat) : State × List Nat :=
  let restore := ((zoneTiles fcol zrow).filterMap s.owner).eraseDups
  let s1 := restore.foldl State.stopPart s
  ((zoneTiles fcol zrow).foldl (fun y t => y.onTile t fun x =>
    { x with store := [], om := [], acc0 := [], acc1 := [], dict := [], index := [], move := .still }) s1, restore)

/-- The zone of a planned retirement under way is lost: it has no move any more, and its partitions are restored (R382, R384). -/
def State.loseMoving (s : State) (fcol : Nat) (z : ZoneMove) : State :=
  match s.zoneRow fcol z.failed with
  | none => s.setZone fcol (some { z with lost := true })
  | some zf =>
    let (s1, restore) := s.dropZone fcol zf
    let z1 := { z with
      lost := true, rows := z.rows.filter fun r => decide (r ≠ zf), pids := z.pids.filter fun p => !restore.contains p,
      restore := restore ++ z.restore.filter fun p => !restore.contains p }
    let s2 := s1.setZone fcol (some z1)
    if z1.rows.isEmpty then s2.finishZone fcol else s2.post s.now rankAfter (.zoneMove fcol (z1.rows.headD 0))

/-- A zone is retired, planned or lost. A column without a spare loses the module; a second cause for the field that is being retired
has no further effect, but for the loss of its contents (R382, R385). -/
def State.retireZone (s : State) (fcol frow : Nat) (lost : Bool) : State :=
  let sp := s.spare fcol
  let again := (s.zone fcol).filter fun z => decide (z.failed = frow)
  if let some z := again then (if lost ∧ !z.lost then s.loseMoving fcol z else s)
  else if frow = sp then
    if lost then { s with deadFields := (fcol * 6 + frow) :: s.deadFields }
    else s.draw.post (s.now + 2400000) rankAfter (.selftestComplete 16 3 (fcol * 2 ^ 12 + frow * 2 ^ 9) (Config.testFails s.free))
  else if s.deadFields.contains (fcol * 6 + sp) ∨ (s.zone fcol).isSome then s.loseModule
  else
    let zf := if frow < sp then frow else frow - 1
    let all := if frow < sp then (List.range (sp - frow)).map fun i => sp - 1 - i else (List.range (frow - sp)).map (sp + ·)
    let rows := if lost then all.filter fun r => decide (r ≠ zf) else all
    let (s2, restore) := if lost then s.dropZone fcol zf else (s, [])
    let s3 := s2.setZone fcol (some
      { failed := frow, lost := lost, rows := rows, pids := [], begun := [], seen := [], copying := false, restore := restore })
    if rows.isEmpty then s3.finishZone fcol else s3.beginZone fcol

/-! ## Retiring a tile (R377, R378) -/

/-- The row of a physical sheaf gains a dead sheaf; a second one is kept beside the mask, which holds one bit. -/
def State.retireSheaf (s : State) (p : Nat) : State :=
  let f := fieldOf p
  let srow := sheafRow p
  let d := sheafCol p
  let m := s.mask (f / 6) (f % 6) srow
  let late := Table.get 0 s.lateDead (f * 8 + srow)
  let s1 := { s with lateDead := Table.set 0 s.lateDead (f * 8 + srow) (late ||| 2 ^ d) }
  match s.shift f srow with
  | some x => if x.dead = d then s else s1.setShift f srow (some { x with second := true })
  | none =>
    if fld m d 1 = 1 then s
    else if m ≠ 0 then s1.retireZone (f / 6) (f % 6) false
    else if d = 8 then s.setMask f srow (2 ^ 8)
    else (s.setShift f srow (some { dead := d, step := 1, owner := none, begun := false, copying := false, second := false })).beginStep f srow

/-- The physical sheaf of a tile is retired already, or its shift or its zone's retirement is under way. -/
def State.retired (s : State) (p : Nat) : Bool :=
  decide (fld (Table.get 0 s.lateDead (fieldOf p * 8 + sheafRow p)) (sheafCol p) 1 = 1) ||
    match s.shift (fieldOf p) (sheafRow p) with
    | some x => decide (x.dead = sheafCol p)
    | none => decide (fld (s.mask (fieldOf p / 6) (fieldOf p % 6) (sheafRow p)) (sheafCol p) 1 = 1)

/-- Retiring the sheaf retires its zone: its row has a dead sheaf already, or one that is shifting (R378). -/
def State.retiresZone (s : State) (p : Nat) : Bool :=
  (s.shift (fieldOf p) (sheafRow p)).isSome || decide (s.mask (fieldOf p / 6) (fieldOf p % 6) (sheafRow p) ≠ 0)

/-- Retire a physical tile: the record of kind 5, and its sheaf (R377). -/
def State.retire (s : State) (p reason : Nat) : State :=
  if s.retired p then s
  else
    let s1 := match (s.logicalTile p).bind s.owner with
      | some pid =>
        s.freeRecord (s.part pid).queue (0xFF + 0xFFFF * 2 ^ 16 + 0x7FFF * 2 ^ 32 + 0xFF * 2 ^ 48)
          (5 + pid * 2 ^ 16 + p * 2 ^ 32 + reason * 2 ^ 48)
      | none => s
    s1.retireSheaf p

/-- A step's map takes effect: the mask holds its bit; the next step begins, or the shift ends (R378). -/
def State.endStep (s : State) (field srow : Nat) : State :=
  match s.shift field srow with
  | none => s
  | some x =>
    let s1 := s.setMask field srow (2 ^ (8 - x.step))
    if x.step = 8 - x.dead then
      let s2 := s1.setShift field srow none
      (if x.second then s2.retireZone (field / 6) (field % 6) false else s2).retireDone
    else (s1.setShift field srow (some { x with step := x.step + 1, begun := false, copying := false })).beginStep field srow

/-- SHEAF_SHIFT_STEP: a step's tiles hold from the first cycle on which they are idle, every flit that arrives on it too (R379). A step whose partition has gone is copied at once, or, where the
copy has ended, changes the map now (log entry 32). -/
def execSheafShiftStep (field srow step : Nat) (s : State) : Host.Outcome State Fault Refusal :=
  .next (match s.shift field srow with
    | none => s
    | some x =>
      let ts := s.stepTiles field srow x
      if x.step ≠ step then s
      else if x.copying then
        (if (x.owner.filter s.placed).isNone ∧ x.owner.isSome ∧ ts.all fun t => (s.tile t).move == .moved then
          (s.setMove ts .still).endStep field srow else s)
      else
        match x.owner.filter s.placed with
        | none => (s.setMove ts .still).beginStep field srow
        | some _ =>
          if !x.begun then s
          else if ts.all s.tileIdle then
            let f := s.now + stepCycles
            (ts.foldl (fun z t => z.holdTile t f) (s.setShift field srow (some { x with copying := true }))).post f rankRelease
              (.shiftCopyEnd field srow step)
          else s.post (s.now + 1) rankRelease (.sheafShiftStep field srow step))

/-- SHIFT_COPY_END: the tiles resume at f, and the map changes at their partition's next release; the map of a sheaf that no
partition owns changes now. -/
def execShiftCopyEnd (field srow step : Nat) (s : State) : Host.Outcome State Fault Refusal :=
  .next (match s.shift field srow with
    | none => s
    | some x =>
      let ts := s.stepTiles field srow x
      if x.step ≠ step ∨ !x.copying then s
      else
        match x.owner.filter s.placed with
        | some _ => ts.foldl State.resumeTile s
        | none => ((ts.foldl State.newPlace s).setMove ts .still).endStep field srow)

/-- ZONE_MOVE: the tiles of the zone hold once every partition has begun its forced phase and every engine is idle (R383). -/
def execZoneMove (fcol zrow : Nat) (s : State) : Host.Outcome State Fault Refusal :=
  .next (match s.zone fcol with
    | none => s
    | some z =>
      if z.rows.head? ≠ some zrow then s
      else if z.copying then
        let copies := s.agenda.any fun v => match v.ev with
          | .zoneCopyEnd f r => decide (f = fcol ∧ r = zrow)
          | _ => false
        (if (z.pids.filter s.placed).all z.seen.contains ∧ !z.pids.isEmpty ∧ !copies then
          (s.setMove (zoneTiles fcol zrow) .still).zoneStep fcol else s)
      else
        let live := z.pids.filter s.placed
        let ts := zoneTiles fcol zrow
        if live.isEmpty then
          ((s.setMove ts .still).setZone fcol (some { z with pids := [], copying := true })).post (s.now + zoneCycles) rankAfter
            (.zoneCopyEnd fcol zrow)
        else if live.all z.begun.contains ∧ ts.all s.tileIdle then
          let f := s.now + zoneCycles
          let s1 := s.setZone fcol (some { z with pids := live, copying := true })
          ((ts.filter fun t => (s.tile t).move == .waiting).foldl (fun y t => y.holdTile t f) s1).post f rankRelease
            (.zoneCopyEnd fcol zrow)
        else if z.begun.isEmpty then s
        else s.post (s.now + 1) rankRelease (.zoneMove fcol zrow))

/-- ZONE_COPY_END. -/
def execZoneCopyEnd (fcol zrow : Nat) (s : State) : Host.Outcome State Fault Refusal :=
  .next (match s.zone fcol with
    | none => s
    | some z =>
      if z.rows.head? ≠ some zrow ∨ !z.copying then s
      else
        let s1 := ((zoneTiles fcol zrow).filter fun t => (s.tile t).move == .holding).foldl State.resumeTile
          ((zoneTiles fcol zrow).foldl State.newPlace s)
        if (z.pids.filter s.placed).all z.seen.contains then (s1.setMove (zoneTiles fcol zrow) .still).zoneStep fcol else s1)

/-! ## Moves at the releases of a partition (R379, R380, R383, R391) -/

/-- A zone move that partition `pid` has still to take part in covers a field: its sheaf steps wait until the zone has moved (R383). -/
def State.zoneFirst (s : State) (pid field : Nat) : Bool :=
  match s.zone (field / 6) with
  | some z => z.pids.contains pid && !z.seen.contains pid && decide (z.rows.head? = s.zoneRow (field / 6) (field % 6))
  | none => false

/-- A step or a zone move still waits for a forced exchange phase of partition `pid` (R379, R383). -/
def State.moveOwed (s : State) (pid : Nat) : Bool :=
  (s.shifts.any fun e => match e.2 with
    | some x => decide (x.owner = some pid) && !x.copying && !x.begun
    | none => false) ||
  s.zones.any fun e => match e.2 with
    | some z => z.pids.contains pid && !z.begun.contains pid && !z.copying
    | none => false

/-- The release begins a forced exchange phase of partition `pid`: the tiles of its steps and zones do not issue. -/
def State.movesBegin (s : State) (pid : Nat) : State :=
  let s1 := s.shifts.foldl (fun y e => match e.2 with
    | some x =>
      let f := e.1 / 8
      if x.owner = some pid ∧ !x.copying ∧ !s.zoneFirst pid f then
        ((y.setShift f (e.1 % 8) (some { x with begun := true })).setMove (y.stepTiles f (e.1 % 8) x) .waiting).post y.now rankRelease
          (.sheafShiftStep f (e.1 % 8) x.step)
      else y
    | none => y) s
  let s2 := s.zones.foldl (fun y e => match e.2 with
    | some z =>
      if z.pids.contains pid ∧ !z.begun.contains pid ∧ !z.copying then
        let r := z.rows.headD 0
        let mine := (zoneTiles e.1 r).filter fun t => decide (y.owner t = some pid)
        ((y.setMove mine .waiting).setZone e.1 (some { z with begun := pid :: z.begun })).post y.now rankRelease (.zoneMove e.1 r)
      else y
    | none => y) s1
  s2.onPart pid fun p => { p with forced := p.forced || s2.moveOwed pid }

/-- A release of partition `pid`: the maps of the steps and zones that its tiles have made take effect. -/
def State.movesEnd (s : State) (pid : Nat) : State :=
  let s1 := s.shifts.foldl (fun y e => match e.2 with
    | some x =>
      let ts := y.stepTiles (e.1 / 8) (e.1 % 8) x
      if x.owner = some pid ∧ x.copying ∧ ts.all fun t => (y.tile t).move == .moved then
        (y.setMove ts .still).endStep (e.1 / 8) (e.1 % 8)
      else y
    | none => y) s
  s.zones.foldl (fun y e => match e.2 with
    | some z =>
      let mine := (zoneTiles e.1 (z.rows.headD 0)).filter fun t => decide (y.owner t = some pid)
      if z.copying ∧ z.pids.contains pid ∧ mine.all fun t => (y.tile t).move == .moved then
        let z1 := { z with seen := pid :: z.seen }
        let y1 := (y.setMove mine .still).setZone e.1 (some z1)
        if (z.pids.filter y.placed).all z1.seen.contains then y1.zoneStep e.1 else y1
      else y
    | none => y) s1

/-- Partition `pid` is loaded anew, now or for the first time (R383, R384). A sheaf step of its begins again, or, where its copy has
ended, changes the map now. It takes part in the zone moves of its zones that have not begun to copy, and stands at the new place of one
that copies. -/
def State.resetMoves (s : State) (pid : Nat) : State :=
  let s1 := s.shifts.foldl (fun y e => match e.2 with
    | some x =>
      let f := e.1 / 8
      let r := e.1 % 8
      let ts := y.stepTiles f r x
      if x.owner ≠ some pid then y
      else if x.copying ∧ ts.all fun t => (y.tile t).move == .moved then y.endStep f r
      else ((y.setShift f r (some { x with begun := false, copying := false })).dropEvents fun v => match v.ev with
        | .sheafShiftStep f1 r1 _ | .shiftCopyEnd f1 r1 _ => decide (f1 = f ∧ r1 = r)
        | _ => false).onPart pid fun p => { p with forced := true }
    | none => y) s
  s.zones.foldl (fun y e => match e.2 with
    | some z =>
      let r := z.rows.headD 0
      if z.rows.isEmpty ∨ !((zoneTiles e.1 r).any fun t => (s.part pid).tiles.contains t) then y
      else
        let z1 := { z with pids := if z.pids.contains pid then z.pids else pid :: z.pids, begun := z.begun.filter fun p => decide (p ≠ pid) }
        if z.copying then
          (y.setZone e.1 (some { z1 with seen := if z.seen.contains pid then z.seen else pid :: z.seen })).post y.now rankAfter (.zoneMove e.1 r)
        else y.setZone e.1 (some z1)
    | none => y) s1

/-! ## Tests at a release (R374-R376, R388) -/

/-- The spare rows of a bank that are in use: those that bring-up assigned, a free number of the two, and those taken since (R372, R428). -/
def State.rowsUsed (s : State) (bank : Nat) : Nat := Config.rowsAtBringUp s.rowDraw bank % 3 + Table.get 0 s.rowSpares bank

/-- Test the first `n` queued rows of a tile: a row that fails takes a spare row of its physical bank, or marks the tile (R372, R375). -/
def State.testRows (s : State) (t : Nat) : Nat → State
  | 0 => s
  | n + 1 =>
    match (s.tile t).testRows with
    | [] => s
    | row :: rest =>
      let bank := s.ptid t * 2 ^ 24 + row / 256
      let fails := Config.testFails s.free
      let used := s.rowsUsed bank
      let s1 := s.draw.onTile t fun x => { x with
        testRows := rest, marked := if fails ∧ 2 ≤ used then some (1, none) else x.marked }
      let s2 := if fails ∧ used < 2 then { s1 with rowSpares := Table.set 0 s1.rowSpares bank (Table.get 0 s1.rowSpares bank + 1) } else s1
      s2.testRows t n

/-- A tile's mark takes effect, unless the row that it waits for is still to be tested (R376, R377). -/
def State.takeMark (s : State) (t : Nat) : State :=
  match (s.tile t).marked with
  | none => s
  | some (reason, row) =>
    if row.any (s.tile t).testRows.contains then s
    else (s.onTile t fun x => { x with marked := none }).retire (s.ptid t) reason

/-- The tests and marks of a partition's release. -/
def State.testsAtRelease (s : State) (pid : Nat) : State :=
  (s.part pid).tiles.foldl (fun z t =>
    let z1 := (z.testRows t (z.tile t).testing).onTile t fun x => { x with testing := 0 }
    let z2 := if (z1.tile t).pairDue then
        let y := z1.draw.onTile t fun x => { x with pairDue := false }
        if Config.testFails z1.free then y.retire (y.ptid t) 2 else y
      else z1
    z2.takeMark t) s

/-- Rows queued in a tile of no partition are tested at once, and its mark takes effect (R374, R376). -/
def State.testIdle (s : State) (t : Nat) : State := (s.testRows t (s.tile t).testRows.length).takeMark t

/-! ## Monitors (R385, R386) -/

/-- A step of a field that the module has. -/
def inField (fcol frow : Nat) (s : State) (f : State → State) : Host.Outcome State Fault Refusal :=
  if 8 ≤ fcol ∨ 6 ≤ frow then .fault .noSuchUnit else .next (f s)

def execZoneLoss (fcol frow : Nat) (s : State) : Host.Outcome State Fault Refusal :=
  inField fcol frow s fun s => s.retireZone fcol frow true
def execPlannedZoneRetirement (fcol frow : Nat) (s : State) : Host.Outcome State Fault Refusal :=
  inField fcol frow s fun s => s.retireZone fcol frow false
def execPeriodDeviationAlarm (fcol frow : Nat) (s : State) : Host.Outcome State Fault Refusal :=
  inField fcol frow s fun s => s.retireZone fcol frow false
def execDutyCycleAlarm (fcol frow : Nat) (s : State) : Host.Outcome State Fault Refusal :=
  inField fcol frow s fun s => s.retireZone fcol frow false
def execRegulatorAlarm (fcol frow : Nat) (s : State) : Host.Outcome State Fault Refusal :=
  inField fcol frow s fun s => s.retireZone fcol frow true
def execJunctionTemperatureAlarm (fcol frow : Nat) (s : State) : Host.Outcome State Fault Refusal :=
  inField fcol frow s fun s => s.retireZone fcol frow true
def execCoolantFlowLoss (s : State) : Host.Outcome State Fault Refusal := .next s.loseModule

/-! ## Self-tests (R384, R388) -/

/-- The logical tiles that a SELFTEST's target holds. -/
def State.testTargets (s : State) (scope tile : Nat) : List Nat :=
  if scope = 3 then
    match s.zoneRow (fieldOf tile / 6) (fieldOf tile % 6) with
    | some z => zoneTiles (fieldOf tile / 6) z
    | none => []
  else (s.logicalTile tile).toList

/-- The cycles of a scope (Table 19.3). -/
def testCycles (scope : Nat) : Nat :=
  match scope with
  | 0 => 120000
  | 1 => 1600000
  | 2 => 240000
  | _ => 2400000

/-- A SELFTEST begins once its target is in no placed partition. -/
def State.beginTest (s : State) (q scope tile : Nat) : State :=
  if (s.testTargets scope tile).all fun t => (s.owner t).isNone then
    ((s.onQueue q fun x => { x with block := .test }).post (s.now + testCycles scope) rankAfter
      (.selftestComplete q scope tile (Config.testFails s.free))).draw
  else s.onQueue q fun x => { x with block := .testWait scope tile }

/-- SELFTEST_COMPLETE: the record of kind 6 into the command's queue, and what a failure brings; `q` 16 is the command
processor's own test of a retired field, 17 the row tests and the mark of a tile outside every partition, and a queue whose target was in
use looks again. -/
def execSelftestComplete (q scope tile : Nat) (fail : Bool) (s : State) : Host.Outcome State Fault Refusal :=
  .next (
    if q = 16 then
      if fail then { s with deadFields := fieldOf tile :: s.deadFields } else s
    else if q = 17 then (if (s.owner tile).isNone then s.testIdle tile else s)
    else
      match (s.queue q).block with
      | .testWait _ _ => s.beginTest q scope tile
      | .test =>
        let s1 := (s.freeRecord q (0xFFF + 2 ^ 16 + 0x7FFF * 2 ^ 32) (6 + scope * 2 ^ 8 + bitOf fail * 2 ^ 16 + tile * 2 ^ 32)).unblock q
        if fail ∧ scope ≤ 2 then s1.retire tile 2 else s1
      | _ => s)

end Sys2Proof.Machine
end

