-- ==== Sys2Proof/Machine/Release.lean ====
section
/-! DEFINITION. Arrivals that wait for a tile's pending work, and the releases of locks and phasers (08 R172, R176-R183, R190,
10 R214, R228-R232, 18 R365). -/

namespace Sys2Proof.Machine

/-! ## Arrivals (R176, R190, R214, R365) -/

/-- Every window of a core loses its register. -/
def State.unbindAll (s : State) (c : Nat) : State := (s.core c).engines.foldl (fun z e => z.unbindXfer (tileOf c) e) s

/-- A core's streams and array are idle, and its collectives are done (R365). -/
def State.quiet (s : State) (c : Nat) : Bool :=
  let t := tileOf c
  ((s.core c).engines.all fun e => !(s.engine t e).busy) && (s.tile t).array.quiescent && s.collsDone t

/-- Nothing delays a core's arrival now: in an exchange phase what it sent has been written before cycle `by_`, its quay queues have
drained and its lane is quiet; at a round lock its streams and array are idle and its collectives done. -/
def State.settledBy (s : State) (c : Nat) (round : Bool) (by_ : Nat) : Bool :=
  let t := tileOf c
  let written := match s.exchanged c with
    | some w => decide (w < by_)
    | none => false
  (decide ((s.core c).phase % 2 = 0) || (written && s.quaysDrained t && s.opticsDone c)) &&
    (!round || s.quiet c)

/-- Nothing delays the arrival of a LOCK or a PSIG now: it comes on the cycle after the last write (R214). -/
def State.settled (s : State) (c : Nat) (round : Bool) : Bool := s.settledBy c round s.now

/-- A LOCK's wait. -/
def Wait.onLock (w : Wait) : Bool :=
  match w.what with
  | .lock _ _ => true
  | _ => false

/-- A wait whose bound counts from its core's arrival at ph0. -/
def Wait.onArrival (w : Wait) : Bool :=
  match w.what with
  | .lock _ _ | .phaser 0 _ => true
  | _ => false

/-- A wait's LOCK set ROUND itself. -/
def Wait.ownRound (w : Wait) : Bool :=
  match w.what with
  | .lock _ own => own
  | _ => false

/-- The waits of a lock learn that it is a round lock: each limit that is still to come moves by the copy's 6,144 cycles (R181). -/
def State.growLimits (s : State) (pid : Nat) : State :=
  ((s.scopeOf pid).flatMap fun p => (s.phaser p 0).arrivals.map Prod.fst).foldl (fun z c =>
    match (z.core c).waits.find? Wait.onLock with
    | some w => match w.limit with
      | some l => if z.now ≤ l ∧ !w.again ∧ !w.ownRound then z.setLimit c w (l + 6144) else z
      | none => z
    | none => z) s

/-- The lock becomes a round lock: a member that has arrived already has its windows unbound, and one whose engines are not idle arrives
anew once they are (R365; log entry 15). -/
def State.joinRound (s : State) (pid : Nat) : State :=
  (s.scopeOf pid).foldl (fun z p => (z.phaser p 0).arrivals.foldl (fun y e => match e.2 with
    | none => y
    | some a =>
      if a.round ∨ y.quiet e.1 then y.unbindAll e.1
      else
        let x := y.phaser p 0
        let m := x.member e.1
        let y1 := y.setPhaser p 0 { x with
          members := Table.set Member.none x.members e.1 { m with arr := m.seen }, arrivals := Table.set none x.arrivals e.1 none }
        (y1.onCore e.1 fun k => { k with
          arriving := some a,
          waits := k.waits.map fun w => if w.onArrival ∧ !w.again then { w with limit := none } else w }).post
          (y1.now + 1) rankAfter (.delayedArrival e.1 (y1.core e.1).gen)) z) s

/-- Keep how core `c` stands with some phasers, for a rewind that takes its arrival back (R361). -/
def State.keepArrival (s : State) (c pid : Nat) (phs : List Nat) : State :=
  s.onCore c fun x => { x with
    came := some (s.now, phs.map fun n => (n, (s.phaser pid n).member c, (s.phaser pid n).arrival c)) }

/-- A core arrives at its lock now, and its wait learns its limit; where its arrival makes the lock a round lock, the members that have
arrived before learn it first. -/
def State.arriveAtLock (s : State) (c pid : Nat) (a : Arrival) : State :=
  let s0 := if a.round ∧ !s.scopeRound pid then (s.growLimits pid).joinRound pid else s
  let s1 := (s0.keepArrival c pid [0]).closeSegment c
  let s2 := if a.round ∨ s1.scopeRound pid then s1.unbindAll c else s1
  let s3 := (s2.onCore c fun x => { x with arriving := none }).arrive c 0 a
  let round := s3.scopeRound pid
  (s3.core c).waits.foldl (fun z w => match w.what, w.limit with
      | .lock _ own, none => z.setLimit c w (s.now + (z.part pid).latency (round || own) + 16 * w.bound + 1)
      | .phaser 0 _, none => z.setLimit c w (s.now + 64 + 16 * w.bound + 1)
      | _, _ => z) s3

/-- DELAYED_ARRIVAL: the arrival of a LOCK or PSIG on ph0, made on the first cycle that nothing delays it (R176, R214, R365). -/
def execDelayedArrival (core gen : Nat) (s : State) : Host.Outcome State Fault Refusal :=
  .next (match (s.core core).arriving, (s.core core).part with
    | some a, some pid =>
      if s.settled core (a.round || s.scopeRound pid) then s.arriveAtLock core pid a
      else s.post (s.now + 1) rankAfter (.delayedArrival core gen)
    | _, _ => s)

/-- END's arrival at one phaser (R190). A core that signalled by PSIG and has yet to observe its lock's release leaves at once. -/
def State.endAt (s : State) (c pid ph : Nat) : State :=
  let x := s.phaser pid ph
  let m := x.member c
  if m.mode.isNone then s
  else if ph ≠ 0 then s.leavePhaser c pid ph
  else if x.skewed c then
    let s1 := s.leavePhaser c pid 0
    if (s1.phaser pid 0).counted.isEmpty then s1.endPartition pid else s1
  else if m.waiting then
    s.setPhaser pid 0 { x with arrivals := Table.set none x.arrivals c ((x.arrival c).map fun a => { a with ended := true }) }
  else s.arrive c 0 { Arrival.plain with ended := true }

/-- What the tiles of a stopped partition had begun is done: their quay operations, and the collectives that have committed (R284). -/
def State.workDone (s : State) (pid : Nat) : Bool :=
  let p := s.part pid
  p.tiles.all s.quaysDrained && !(s.colls.any fun e => e.2.commit && e.2.parts.any fun k => p.cores.contains k.core && !k.gone)

/-- END_ARRIVAL: of a partition that ends with its tiles stopped, the completion of its task (R284, R354); else at d, or on the cycle
after what completes later than d, the windows are unbound, and the tile arrives at the current lock of every phaser (R189, R190); a
PSIG's arrival that is still delayed is this one. -/
def execEndArrival (core due : Nat) (s : State) : Host.Outcome State Fault Refusal :=
  .next (
    let x := s.core core
    match x.part with
    | none => s
    | some pid =>
      if (s.part pid).ending then (if s.workDone pid then s.endPartition pid else s.post (s.now + 1) rankAfter (.endArrival core due))
      else if x.endAt ≠ some due then s
      else
        let s1 := s.unbindAll core
        if s1.settledBy core (s1.scopeRound pid) (max s1.now (due + 1)) then
          let phs := (s1.part pid).phasers.map Prod.fst
          let s2 := (s1.keepArrival core pid phs).onCore core fun y => { y with endAt := none, arriving := none }
          (phs.filter fun n => decide (n ≠ 0)).foldl (fun z n => z.endAt core pid n) s2 |>.endAt core pid 0
        else s1.post (s.now + 1) rankAfter (.endArrival core due))

/-! ## Stragglers (R178, R206) -/

/-- PHASE of a partition: that of its lowest counted core. -/
def State.phaseOf (s : State) (pid : Nat) : Nat := (s.core ((s.phaser pid 0).counted.headD 0)).phase

/-- The relative TIDs of a partition with whether every counted core of the tile has arrived; a tile that has left by END counts as
arrived (DESIGN CHOICE, log entry 53). -/
def State.arrivedTiles (s : State) (pid : Nat) : List (Nat × Bool) :=
  let p := s.part pid
  let x := s.phaser pid 0
  p.tiles.map fun t => (p.rel t, (x.counted.filter fun c => decide (tileOf c = t)).all fun c => (x.arrival c).isSome)

/-- STRAGGLER_EVENT: the record of kind 2 and its arrived mask, where the latest arrival of the lock is late, over the parts of a group
that are on this module and, once the release is due, over the members elsewhere (R178; log entry 53). -/
def execStragglerEvent (pid epoch : Nat) (s : State) : Host.Outcome State Fault Refusal :=
  .next (
    let p := s.part pid
    let x := s.phaser pid 0
    let xs := (s.scopeOf pid).map fun q => s.phaser q 0
    let times := xs.flatMap fun y => y.arrivals.filterMap fun e => e.2.map fun a => a.time
    let first := times.foldl min (times.headD 0)
    let late := xs.any fun y => y.counted.any fun c => match y.arrival c with
      | some a => decide (first + p.hdr.strag < a.time)
      | none => true
    let late := late || (x.release.isSome && decide (first + p.hdr.strag < p.farLast))
    if x.epoch ≠ epoch ∨ p.hdr.strag = 0 ∨ times.isEmpty ∨ !late then s
    else
      let ts := s.arrivedTiles pid
      let n := (ts.filter Prod.snd).length
      let lowest := ((ts.find? fun e => !e.2).map Prod.fst).getD 0
      let mask := fromLanes 1 (ts.map fun e => bitOf e.2)
      let rec1 := mixBits (Config.freeBits s.free) (2 ^ 110 - 1 - 0xFF00)
        (2 + pid * 2 ^ 16 + s.phaseOf pid % 2 ^ 32 * 2 ^ 32 + n * 2 ^ 64 + lowest * 2 ^ 96)
      s.draw.records p.queue (rec1 :: (List.range ((ts.length + 511) / 512)).map fun i => fld mask (512 * i) 512))

/-! ## The release of a lock (R172, R176, R183) -/

/-- LKSTAT of a core at its observed release (Table 8.5); WAITED is free where no LOCK waited, by what a manifest names and the cycle
since the start tick (R433, log entry 3). -/
def State.lkValue (s : State) (c lk : Nat) : Word :=
  let x := s.core c
  let issued := ((x.waits ++ x.savedWaits).find? Wait.onLock).map fun w => w.issued
  let waited := match issued with
    | some n => min (s.now - n) (2 ^ 32 - 1)
    | none =>
      let p := s.partOf c
      Config.lockWaited [p.hdr.digest.toNat, p.rel (tileOf c), x.coreNo, x.phase, s.now - p.t0] % 2 ^ 32
  BitVec.ofNat 64 (waited * 2 ^ 8 + lk)

/-- A member observes a release. -/
def Member.observed (m : Member) : Member := { m with seen := m.seen + 1, view := m.mode }

/-- A core observes the release of its lock, POS cycles after its tick: its channels count anew, and the inputs of tree flits of the new
phase that have come already wait on (R220). -/
def State.observe (s : State) (c pid : Nat) : State :=
  let t := tileOf c
  let x := s.phaser pid 0
  let m := x.member c
  let p := s.part pid
  let lk := s.lkValue c p.lk
  let s1 := s.setPhaser pid 0 { x with members := Table.set Member.none x.members c m.observed }
  let s2 := s1.onTile t fun y => { y with
    chans := Table.mapped Chan.reset (fun n k => if s.chanCore t n = c then { Chan.reset with merges := k.merges } else k) y.chans,
    opts := if c % 2 = 0 then y.freshPhase.opts else y.opts }
  let s3 := s2.onCore c fun y => { y with
    phase := (y.phase + 1) % 2 ^ 32, relAt := s.now, windowed := p.windowed, lkstat := lk, startLog := [], replay := [],
    stampOff := decide (fld p.lk 7 1 = 1) && decide (y.phase % 2 = 0), entry := true, mismatches := 0, fresh := true }
  let s4 := s3.onCore c fun y => { y with relSnap := some (s3.snapshot c) }
  s4.tellWaits c

/-- The release tick of a partition's lock. -/
def State.lockRelease (s : State) (pid : Nat) : State :=
  let p := s.part pid
  let x := s.phaser pid 0
  let phase := s.phaseOf pid
  let exch := decide (phase % 2 = 0)
  let round := decide (fld p.lk 5 1 = 1)
  let next := p.winNext || p.forced
  let left (c : Nat) : Bool := ((x.arrival c).map fun a => a.ended).getD false
  let r0 := (s.core (2 * p.abs 0)).regs
  let x1 : Phaser := { x with
    members := Table.mapped Member.none (fun c m => if left c then { m with mode := none } else m) x.members,
    epoch := x.epoch + 1, arrivals := [], release := none }
  let s1 := s.onPart pid fun q => { q with
    windowed := exch && next, winNext := !exch && q.winNext, forced := !exch && q.forced,
    lk := p.lk % 2 ^ 6 + bitOf next * 2 ^ 6 + bitOf p.forced * 2 ^ 7, farLast := 0,
    roundPhase := if round then some ((phase + 1) % 2 ^ 32) else q.roundPhase,
    csr5 := if phase = 0 ∧ q.csr5.isNone then some (r0.fmode, r0.seed, r0.blkdelta) else q.csr5 }
  let s2 := s1.setPhaser pid 0 x1
  let s3 := (s2.part pid).phasers.foldl (fun z e => z.setPhaser pid e.1 { z.phaser pid e.1 with roster := (z.phaser pid e.1).counted }) s2
  let ends := x1.counted.isEmpty
  let stops := p.preempt.isSome ∧ round
  let s4 := if exch ∧ p.forced ∧ !ends ∧ ¬stops then s3.movesBegin pid else s3
  let s4 := if p.hdr.gcount ≠ 0 ∧ (s.scopeOf pid).head? = some pid then s4.swapTables.correctDrift else s4
  let s5 := (s4.movesEnd pid).testsAtRelease pid
  if ends then s5.endPartition pid
  else if stops then
    let s6 := x1.counted.foldl (fun z c =>
      z.onCore c fun y => { y with lkstat := ({ s with now := s.now + y.pos } : State).lkValue c (s1.part pid).lk }) s5
    ((s6.stopPart pid).post (s.now + Config.hartDelay s.free) rankAfter (.preemptSave pid)).draw
  else
    let s6 := if round then p.cores.foldl State.unbindAll s5 else s5
    x1.counted.foldl (fun z c => z.post (s.now + (z.core c).pos) rankRelease (.lockRelease pid 1 (some c))) s6

/-- LOCK_RELEASE: the release tick, and then what each core observes. -/
def execLockRelease (pid stage : Nat) (core : Option Nat) (s : State) : Host.Outcome State Fault Refusal :=
  .next (match stage, core with
    | 0, none => if (s.phaser pid 0).release = some s.now ∧ !(s.part pid).ending then s.lockRelease pid else s
    | _, some c => if (s.core c).part = some pid ∧ (s.core c).status ≠ .stopped then s.observe c pid else s
    | _, _ => s)

/-! ## The release of ph1 to ph63 (R228, R230) -/

/-- What the release that ends epoch `epoch` brings a member: the mode it asked for, or its leaving. Its own forms see that as it
observes the release. -/
def Member.released (m : Member) (epoch : Nat) : Member :=
  match m.pending with
  | Option.none => m
  | some mode =>
    if m.mode.isNone then { m with mode := mode, pending := Option.none, seen := epoch, arr := epoch }
    else { m with mode := mode, pending := Option.none }

/-- PHASER_RELEASE: the release tick, and then each member's observation. -/
def execPhaserRelease (pid ph : Nat) (core : Option Nat) (s : State) : Host.Outcome State Fault Refusal :=
  .next (
    let x := s.phaser pid ph
    match core with
    | none =>
      if x.release ≠ some s.now then s
      else
        let all := (x.members.filter fun e => e.2.mode.isSome || e.2.pending.isSome).map Prod.fst
        let s1 := s.setPhaser pid ph { x with
          members := Table.mapped Member.none (fun _ m => m.released x.epoch) x.members, epoch := x.epoch + 1, arrivals := [],
          release := none }
        all.foldl (fun z c => z.post (s.now + (z.core c).pos) rankRelease (.phaserRelease pid ph (some c))) s1
    | some c =>
      if (s.core c).part ≠ some pid then s
      else
        let m := x.member c
        (s.setPhaser pid ph { x with members := Table.set Member.none x.members c m.observed }).tellWaits c)

end Sys2Proof.Machine
end

