-- ==== Sys2Proof/Machine/Queue.lean ====
section
/-! DEFINITION. The command queues: reading their rings, serving them in order of priority, and every command that launches
nothing (09 R191-R197, 12 R255, R264-R265, 19 R387-R388, 22 R432). -/

namespace Sys2Proof.Machine

/-! ## Second-tier bytes by device virtual address (R253, R257) -/

/-- The byte at a device virtual address; a poisoned unit reads as zeros under POISON = ZERO and as a free value under TRAP
(R257, log entry 3). -/
def State.ctxByte (s : State) (ctx va : Nat) : Option Byte :=
  (s.translate ctx va).map fun pa =>
    if s.tierPoison.contains (pa / 64) then
      (if (s.leaf ctx va).getLsbD 61 then 0 else BitVec.ofNat 8 (fld (Config.freeBits s.free).toNat (8 * (pa % 64)) 8))
    else Memory.read s.tier pa

/-- `n` bytes at a device virtual address; none where one is not mapped. -/
def State.ctxBytes (s : State) (ctx va : Nat) : Nat → Option (List Byte)
  | 0 => some []
  | n + 1 =>
    match s.ctxByte ctx va, s.ctxBytes ctx (va + 1) n with
    | some b, some r => some (b :: r)
    | _, _ => none

/-- Write bytes at device virtual addresses; an unmapped one is left out. -/
def State.ctxWrite (s : State) (ctx : Nat) (bs : List (Nat × Byte)) : State :=
  { s with tier := Memory.writeAll s.tier (bs.filterMap fun e => (s.translate ctx e.1).map fun pa => (pa, e.2)) }

/-- Every byte of a range is mapped. -/
def State.mapped (s : State) (ctx va n : Nat) : Bool :=
  decide (va + n ≤ 2 ^ 48) && (n == 0 || (pagesOf va n).all fun p => (s.leaf ctx (p * 2 ^ 21)).getLsbD 63)

/-! ## The ring (R191-R194) -/

/-- A step on a queue that the module has. -/
def onQueues (q : Nat) (s : State) (f : State → State) : Host.Outcome State Fault Refusal :=
  if q < 16 then .next (f s) else .fault .noSuchUnit

/-- Halt a queue with an error of Table 9.4. No event record is written for it (DESIGN CHOICE, log entry 53). -/
def State.haltQueue (s : State) (q err : Nat) : State := s.onQueue q fun x => { x with halt := true, err := err, word := x.at_ }

/-- The command at the head, of `n` words, has been read. -/
def State.takeCommand (s : State) (q n : Nat) : State :=
  s.onQueue q fun x => { x with at_ := x.head, head := (x.head + n) % 2 ^ x.log2 }

/-- The word at a ring index. -/
def State.ringWord (s : State) (q i : Nat) : Option Nat :=
  let x := s.queue q
  let a := x.base + 8 * (i % 2 ^ x.log2)
  if x.host then some (Memory.nat s.hostMem (s.bus a) 8) else (s.ctxBytes q a 8).map ofBytes

/-- `n` words from a ring index. -/
def State.ringWords (s : State) (q i : Nat) : Nat → Option (List Nat)
  | 0 => some []
  | n + 1 =>
    match s.ringWord q i, s.ringWords q (i + 1) n with
    | some w, some r => some (w :: r)
    | _, _ => none

/-- The words between HEAD and TAIL. -/
def Queue.avail (x : Queue) : Nat := (x.tail % 2 ^ x.log2 + 2 ^ x.log2 - x.head) % 2 ^ x.log2

/-- The head command of a queue is ready (R192): what its first word already refuses needs no further word. -/
def State.headReady (s : State) (q : Nat) : Bool :=
  let x := s.queue q
  if x.en && !x.halt && decide (x.block = .none) && decide (x.avail ≠ 0) then
    match (s.ringWord q x.head).bind fun w => commandWords (fld w 56 8) with
    | some n => decide (n ≤ x.avail)
    | none => true
  else false

/-- The queue served next at a priority level. -/
def State.nextAtLevel (s : State) (p : Nat) : Option Nat :=
  let last := Table.get 15 s.served p
  ((List.range 16).map fun i => (last + 1 + i) % 16).find? fun q => decide ((s.queue q).prio = p) && s.headReady q

/-- The queue that the command processor serves next (R192); none before bring-up has ended (R428), or once the module is lost. -/
def State.nextQueue (s : State) : Option Nat :=
  if s.boot = 5 ∧ !s.lost then ([7, 6, 5, 4, 3, 2, 1, 0] : List Nat).findSome? s.nextAtLevel else none

/-- What serving a queue's head comes to: the state after it, or a command to run. -/
inductive Serving where
  | done (s : State)
  | run (c : Command) (s : State)

/-- Skip the command of `n` words at the head (R195). -/
def State.skipHead (s : State) (q opc n : Nat) : State :=
  let x := s.queue q
  (s.setQueue q { x with
    head := (x.head + n) % 2 ^ x.log2, skip := if x.seek = 0 then x.skip - 1 else x.skip,
    seek := if x.seek = 0 then 0 else if opc = 0x08 then x.seek + 1 else if opc = 0x09 then x.seek - 1 else x.seek }).idleFrom q

/-- Read the head command of a queue (R194). -/
def State.serve (s : State) (q : Nat) : Serving :=
  let x := s.queue q
  let s1 := { s.draw with served := Table.set 15 s.served x.prio q, hartAt := s.now + 1 + Config.hartDelay s.free }
  match s.ringWord q x.head with
  | none => .done ((s1.takeCommand q 1).haltQueue q 0x08)
  | some w =>
    match commandWords (fld w 56 8) with
    | none => .done ((s1.takeCommand q 1).haltQueue q 0x01)
    | some n =>
      match s.ringWords q x.head n with
      | none => .done ((s1.takeCommand q n).haltQueue q 0x08)
      | some ws =>
        if x.seek ≠ 0 ∨ x.skip ≠ 0 then .done (s1.skipHead q (fld w 56 8) n)
        else
          match decodeCommand ws with
          | none => .done ((s1.takeCommand q n).haltQueue q 0x01)
          | some c => if commandPriv (fld w 56 8) ∧ !x.priv then .done ((s1.takeCommand q n).haltQueue q 0x04) else .run c s1

/-! ## Loops and tests (R195) -/

/-- LOOPC. A count of 0 skips the body also where four loops are open (DESIGN CHOICE, log entry 53). -/
def execLoopc (q : Nat) (count : BitVec 32) (s : State) : Host.Outcome State Fault Refusal :=
  onQueues q s fun s =>
    let s1 := s.takeCommand q 1
    let x := s1.queue q
    (if count = 0 then s1.setQueue q { x with seek := 1 }
    else if 4 ≤ x.loops.length then s1.haltQueue q 0x02
    else s1.setQueue q { x with loops := { start := x.head, left := count.toNat } :: x.loops }).idleFrom q

/-- ENDC. -/
def execEndc (q : Nat) (s : State) : Host.Outcome State Fault Refusal :=
  onQueues q s fun s =>
    let s1 := s.takeCommand q 1
    let x := s1.queue q
    (match x.loops with
    | [] => s1.haltQueue q 0x02
    | l :: r =>
      if 1 < l.left then s1.setQueue q { x with head := l.start, loops := { l with left := l.left - 1 } :: r }
      else s1.setQueue q { x with loops := r }).idleFrom q

/-- IFMEM's comparison of the word in memory with the command's. -/
def ifmemHolds (cond : BitVec 2) (m v : Nat) : Bool :=
  match cond.toNat with
  | 0 => decide (m = v)
  | 1 => decide (m ≠ v)
  | 2 => decide (m < v)
  | _ => decide (v ≤ m)

/-- IFMEM. -/
def execIfmem (q : Nat) (cond : BitVec 2) (n : BitVec 4) (addr : BitVec 48) (value : Word) (s : State) :
    Host.Outcome State Fault Refusal :=
  onQueues q s fun s =>
    let s1 := s.takeCommand q 2
    match s1.ctxBytes q addr.toNat 8 with
    | none => s1.haltQueue q 0x08
    | some bs =>
      (if ifmemHolds cond (ofBytes bs) value.toNat then s1 else s1.onQueue q fun x => { x with skip := n.toNat }).idleFrom q

/-- LOOPC_IDLE_TIMEOUT: an open LOOPC has reached TAIL, and its queue has been idle for a second, enabled or
not (DESIGN CHOICE, log entry 53). -/
def execLoopcIdleTimeout (q : Nat) (s : State) : Host.Outcome State Fault Refusal :=
  onQueues q s fun s =>
    let x := s.queue q
    if x.block = .none ∧ !x.halt ∧ x.avail = 0 ∧ (!x.loops.isEmpty ∨ x.seek ≠ 0) ∧ x.idleAt + second ≤ s.now then
      match x.loops with
      | l :: _ => (s.setQueue q { x with at_ := (l.start + 2 ^ x.log2 - 1) % 2 ^ x.log2 }).haltQueue q 0x02
      | [] => s.haltQueue q 0x02
    else s

/-! ## Tokens (R193, R196, R197) -/

/-- WAITTOK. -/
def execWaittok (q : Nat) (tok : BitVec 8) (value : BitVec 32) (s : State) : Host.Outcome State Fault Refusal :=
  onQueues q s fun s =>
    let s1 := s.takeCommand q 1
    if !((s1.queue q).waitmask.getLsbD (tok.toNat / 16)) then s1.haltQueue q 0x03
    else if tokenHolds (s1.token tok.toNat) value.toNat then s1.idleFrom q
    else s1.onQueue q fun x => { x with block := .token tok.toNat value.toNat }

/-- WAITTOK_RELEASE. -/
def execWaittokRelease (q : Nat) (s : State) : Host.Outcome State Fault Refusal :=
  onQueues q s fun s =>
    match (s.queue q).block with
    | .token tok value => if tokenHolds (s.token tok) value then s.unblock q else s
    | _ => s

/-- SIGTOK. -/
def execSigtok (q : Nat) (tok : BitVec 4) (addend : BitVec 32) (s : State) : Host.Outcome State Fault Refusal :=
  onQueues q s fun s => ((s.takeCommand q 1).addToken (16 * q + tok.toNat) addend.toNat).idleFrom q

/-! ## Transfers (R194, R284, R432) -/

/-- The token that a command signals. -/
def sigToken (q : Nat) (sig : Bool) (tok : BitVec 4) : Option Nat := if sig then some (16 * q + tok.toNat) else none

def State.signal (s : State) : Option Nat → State
  | some t => s.addToken t 1
  | none => s

/-- COPYHT: it completes after a free time. -/
def execCopyht (q : Nat) (sig : Bool) (tok : BitVec 4) (dir : Bool) (host : Word) (dev : BitVec 48) (len : Word) (s : State) :
    Host.Outcome State Fault Refusal :=
  onQueues q s fun s =>
    let s1 := s.takeCommand q 4
    if !s1.mapped q dev.toNat len.toNat then s1.haltQueue q 0x08
    else
      let c : Copy := { toHost := dir, host := host.toNat, dev := dev.toNat, len := len.toNat, token := sigToken q sig tok }
      ((s1.onQueue q fun x => { x with block := .copy, copy := some c }).post (s1.now + Config.copyDelay s1.free) rankAfter
        (.copyhtCompletion q)).draw

/-- The fields of a manifest, as numbers of 64 bytes (R432); `free` stands for registers whose release has not come. -/
def Manifest.fields (m : Manifest) (free : BitVec 512) : List Nat :=
  let pages := m.touched.flatMap fun e => Config.pageBytes (fld e.2.toNat 56 4) (fld e.2.toNat 60 1) (fld e.2.toNat 61 1)
  let csr := match m.csr5 with
    | some (f, sd, b) => f.toNat + sd.toNat * 2 ^ 64 + b.toNat * 2 ^ 128
    | none => free.toNat
  [m.firmware.toNat, m.digest.toNat, (Config.shake256 m.tables).toNat, (Config.shake256 (m.regions ++ pages)).toNat, csr, m.shape, m.group]

/-- The manifest of the last task that a queue launched. -/
def State.manifest (s : State) (q : Nat) : Option Manifest :=
  (Table.get none s.manifests q).map fun m =>
    if m.live then { m with touched := (s.part m.pid).touched, csr5 := (s.part m.pid).csr5 } else m

/-- The result of a MANIFEST. -/
def State.compareManifest (s : State) (q : Nat) (stored : List Byte) : Nat :=
  match s.manifest q with
  | none => 0xFF
  | some m =>
    let fs := m.fields (Config.freeBits s.free)
    ((List.range 7).find? fun i => decide (ofBytes ((stored.drop (64 * i)).take 64) ≠ (fs[i]?).getD 0)).elim 0 (· + 1)

/-- MANIFEST: the comparison and its result come after a free time. -/
def execManifest (q : Nat) (stored result : BitVec 48) (s : State) : Host.Outcome State Fault Refusal :=
  onQueues q s fun s =>
    let s1 := s.takeCommand q 2
    if !s1.mapped q stored.toNat 448 ∨ !s1.mapped q result.toNat 8 then s1.haltQueue q 0x08
    else
      ((s1.onQueue q fun x => { x with block := .copy, compare := some (stored.toNat, result.toNat) }).post
        (s1.now + Config.copyDelay s1.free) rankAfter (.copyhtCompletion q)).draw

/-- The last byte of a COPYHT is written. -/
def State.copied (s : State) (q : Nat) (c : Copy) : State :=
  let s1 := if c.toHost then
      { s with hostMem := Memory.writeAll s.hostMem (atAddr (s.bus c.host) ((s.ctxBytes q c.dev c.len).getD [])) }
    else s.ctxWrite q (atAddr c.dev (Memory.bytes s.hostMem (s.bus c.host) c.len))
  s1.draw.signal c.token

/-- COPYHT_COMPLETION: the transfer's bytes are written, its token is signalled, and the queue proceeds. -/
def execCopyhtCompletion (q : Nat) (s : State) : Host.Outcome State Fault Refusal :=
  onQueues q s fun s =>
    let x := s.queue q
    if x.block ≠ .copy then s
    else
      let s1 := match x.copy with
        | some c => s.copied q c
        | none => s
      let s2 := match x.compare with
        | some (a, r) =>
          (s1.ctxWrite q (atAddr r (toBytes (s1.compareManifest q ((s1.ctxBytes q a 448).getD [])) 8))).draw
        | none => s1
      (s2.onQueue q fun y => { y with copy := none, compare := none }).unblock q

/-! ## MAP and INVAL (R255, R264, R265) -/

/-- A page lies among `n` pages from `p` of a context. -/
def TlbEntry.among (e : TlbEntry) (ctx p n : Nat) : Bool := decide (e.ctx = ctx) && decide (p ≤ e.page) && decide (e.page < p + n)

/-- The TLB entries of pages become dying; those that nothing holds are removed. -/
def State.killPages (s : State) (ctx p n : Nat) : State :=
  (List.range 80).foldl (fun z port =>
    let t := z.tlb port
    z.setTlb port { t with
      entries := (t.entries.map fun e => if e.among ctx p n then { e with dying := true } else e).filter fun e =>
        !(e.dying && e.pins.isEmpty) }) s

/-- A translation that an operation keeps is no longer that of the tables. -/
def State.outdated (s : State) (ctx : Nat) (frames : List (Nat × Word)) : Bool :=
  frames.any fun f => decide (s.leaf ctx (f.1 * 2 ^ 21) ≠ f.2)

/-- Something still holds an old translation: a dying entry of a TLB, an operation that waits for room in its queue or has rows to sample,
or a collective that has not ended (R265, R285). -/
def State.drainLeft (s : State) : Bool :=
  (s.tlbs.any fun t => t.2.entries.any fun e => e.dying) ||
    (s.cores.any fun e => e.2.heldTasks.any fun h => s.outdated h.2.1.ctx (h.2.1.frames ++ h.2.1.tables)) ||
    s.colls.any fun e => e.2.parts.any fun k => !k.gone && s.outdated k.ctx k.frames

/-- The queue proceeds once every dying entry has gone. -/
def State.awaitDrain (s : State) (q : Nat) : State :=
  if s.drainLeft then s.onQueue q fun x => { x with block := .drain } else s.idleFrom q

/-- What is wrong with a MAP (R255). -/
def mapRefused (va entry count : Nat) : Bool :=
  decide (fld entry 63 1 = 0) || decide (fld entry 23 33 ≠ 0) || decide (13 ≤ fld entry 56 4) ||
    decide ((fld entry 60 1 = 1) ≠ (fld entry 56 4 = 11 ∨ fld entry 56 4 = 12)) || decide (5859374 < fld entry 0 23 + count - 1) ||
    decide (2 ^ 48 < va + count * 2 ^ 21) || decide (count = 0) || decide (65536 < count)

/-- MAP: a page that is valid is replaced, and its old entry drains; the queue waits only then. -/
def execMapPages (q : Nat) (va : BitVec 48) (entry count : Word) (s : State) : Host.Outcome State Fault Refusal :=
  onQueues q s fun s =>
    let s1 := s.takeCommand q 3
    let p := va.toNat / 2 ^ 21
    if mapRefused va.toNat entry.toNat count.toNat then s1.haltQueue q 0x01
    else
      let old := (List.range count.toNat).any fun i => (s1.leaf q ((p + i) * 2 ^ 21)).getLsbD 63
      let s2 := s1.killPages q p count.toNat
      let s3 := { s2 with
        pages := (List.range count.toNat).foldl (fun t i => Table.set (0 : Word) t (q * 2 ^ 27 + p + i) (entry + BitVec.ofNat 64 i)) s2.pages }
      if old then s3.awaitDrain q else s3.idleFrom q

/-- INVAL. -/
def execInval (q : Nat) (va : BitVec 48) (count : Word) (s : State) : Host.Outcome State Fault Refusal :=
  onQueues q s fun s =>
    let s1 := s.takeCommand q 2
    let p := va.toNat / 2 ^ 21
    let n := min count.toNat (2 ^ 27 - p)
    let s2 := { s1.killPages q p n with
      pages := s1.pages.filter fun e => decide (e.1 < q * 2 ^ 27 + p) || decide (q * 2 ^ 27 + p + n ≤ e.1) }
    s2.awaitDrain q

/-- INVAL_DRAIN_END. -/
def execInvalDrainEnd (q : Nat) (s : State) : Host.Outcome State Fault Refusal :=
  onQueues q s fun s => if (s.queue q).block = .drain ∧ !s.drainLeft then s.unblock q else s

/-! ## PREEMPT, RETIRE and SELFTEST (R203, R387, R388) -/

/-- The bytes of a tile in a save area, and of the save area (Table 18.2). -/
def Part.saveTile (p : Part) : Nat := 2 ^ 17 * (if p.hdr.split then 2 else 1) + 2 ^ 19 + p.hdr.lading
def Part.saveSize (p : Part) : Nat := 4096 + 4 * p.width * p.height * p.saveTile

/-- PREEMPT marks the partition, also one that is placed and has yet to start (DESIGN CHOICE, log entry 53); a PID that is not placed leaves
nothing to do. -/
def execPreempt (q : Nat) (pid : BitVec 16) (save : BitVec 48) (s : State) : Host.Outcome State Fault Refusal :=
  onQueues q s fun s =>
    let s1 := s.takeCommand q 2
    let p := s1.part pid.toNat
    if p.status = .none then s1.idleFrom q
    else if !s1.mapped q save.toNat p.saveSize then s1.haltQueue q 0x08
    else
      (s1.onPart pid.toNat fun y => { y with preempt := y.preempt.orElse fun _ => some (q, save.toNat) }).onQueue q fun x =>
        { x with block := .preempt pid.toNat }

/-- RETIRE. -/
def execRetire (q : Nat) (tile : BitVec 15) (s : State) : Host.Outcome State Fault Refusal :=
  onQueues q s fun s =>
    let s1 := s.takeCommand q 1
    let t := tile.toNat
    if 8 < sheafCol t ∨ 5 < fld t 9 3 then s1.haltQueue q 0x01
    else if s1.retired t then s1.idleFrom q
    else ((s1.onQueue q fun x => { x with block := .retire t (s1.retiresZone t) }).retire t 3).retireDone

/-- SELFTEST. -/
def execSelftest (q : Nat) (scope : BitVec 4) (tile : BitVec 15) (s : State) : Host.Outcome State Fault Refusal :=
  onQueues q s fun s =>
    let s1 := s.takeCommand q 1
    if 3 < scope.toNat then s1.haltQueue q 0x01 else s1.beginTest q scope.toNat tile.toNat

end Sys2Proof.Machine
end

