-- ==== Sys2Proof/Machine/Launch.lean ====
section
/-! DEFINITION. Launches: the header and image checks, placement, the loading of tiles and the start tick (09 R198-R205, 01
R18-R20, R34-R36, 02 R40, 10 R210, 18 R350, R365, 21 R398). -/

namespace Sys2Proof.Machine

/-! ## The launch header (R198, R200, R201) -/

/-- The header of 256 bytes (Table 9.3). -/
def readHeader (b : List Byte) : Header256 :=
  let n (o w : Nat) : Nat := ofBytes ((b.drop o).take w)
  { iver := n 0 4, hfmt := n 4 4, width := n 8 1, height := n 9 1, gsize := n 10 1 % 4, split := decide (n 11 1 % 2 = 1), strag := n 12 4,
    phmask := BitVec.ofNat 64 (n 0x10 8), bintab := n 0x18 6, routes := n 0x20 6, regions := n 0x28 6, lading := n 0x30 4,
    start := BitVec.ofNat 32 (n 0x34 4), resume := BitVec.ofNat 32 (n 0x38 4), hints := n 0x40 6, nhint := n 0x48 2,
    grank := n 0x4C 2, gcount := n 0x4E 2, gtag := n 0x50 4, digest := BitVec.ofNat 512 (n 0x60 64) }

/-- No resume entry. -/
def noResume : CodeAddr := 0xFFFFFFFF

/-- An entry's fault under R38, as far as its bits show it. -/
def entryFault (split : Bool) (a : CodeAddr) : Bool :=
  if inStore a then decide (fld a.toNat 24 7 ≠ 0) || decide (codeByte a % 2 = 1) || decide (0x600000 ≤ codeByte a)
  else decide (fld a.toNat 16 15 ≠ 0) || (split && decide (0x8000 ≤ codePos a))

/-- The shape checks of error 0x05, which a shape of zero passes (R200). -/
def shapeBad (gsize w ht : Nat) : Bool :=
  decide (w ≠ 0) && decide (ht ≠ 0) &&
    (decide (64 < w) || decide (40 < ht) || (decide (gsize = 2) && (decide (w % 2 = 1) || decide (ht % 2 = 1))))

/-- The checks of error 0x05 on a header and an effective shape. -/
def headerBad (h : Header256) (w ht : Nat) : Bool :=
  decide (h.hfmt ≠ 1) || shapeBad h.gsize w ht || decide (h.gsize = 3) || !h.phmask.getLsbD 0 || decide (786432 < h.lading) ||
    decide (h.lading % 4096 ≠ 0) || entryFault h.split h.start || (decide (h.resume ≠ noResume) && entryFault h.split h.resume)

/-- A hint entry (R199). -/
def readHint (v : Nat) : Hint := { phase := fld v 0 32, gap := fld v 32 20, period := fld v 56 7 }

/-- The hint table: all NHINT entries, also above the 4,096 of Table 9.3 (DESIGN CHOICE, log entry 53). -/
def State.readHints (s : State) (ctx : Nat) (h : Header256) : Option (List Hint) :=
  (s.ctxBytes ctx h.hints (8 * h.nhint)).map fun bs =>
    (List.range h.nhint).map fun i => readHint (ofBytes ((bs.drop (8 * i)).take 8))

/-! ## The image checks (R18-R20, R350, R365, R398) -/

/-- A region-table entry. -/
def RegionWords.region (r : RegionWords) : Region :=
  { base := fld r.w0.toNat 12 12 * 4096, size := fld r.w1.toNat 0 12, ro := r.w2.getLsbD 8, kind := fld r.w2.toNat 4 3, fmt := fld r.w2.toNat 0 4 }

/-- A nonzero reserved field of an entry (Table 1.3). -/
def RegionWords.reserved (r : RegionWords) : Bool :=
  decide (r.w0 &&& ~~~ 0xFFF000 ≠ 0) || decide (r.w1 &&& ~~~ 0xFFF ≠ 0) || decide (r.w2 &&& ~~~ 0x17F ≠ 0) || decide (r.w3 ≠ 0)

def CoreImage.table (x : CoreImage) : List Region := x.regions.map RegionWords.region

/-- The bytes of the tile store that a core's regions may cover: its half in split mode (Table 1.1). -/
def coreShare (split : Bool) (core : Nat) : Nat × Nat :=
  if !split then (0, 0x600000) else if core = 0 then (0, 0x300000) else (0x300000, 0x600000)

def Region.past (r : Region) : Nat := r.base + r.size * 4096

/-- Two valid entries overlap. -/
def Region.overlaps (a b : Region) : Bool :=
  decide (a.size ≠ 0) && decide (b.size ≠ 0) && decide (a.base < b.past) && decide (b.base < a.past)

/-- Some entry overlaps a later one. -/
def anyOverlap : List Region → Bool
  | [] => false
  | r :: rs => rs.any r.overlaps || anyOverlap rs

/-- The faults of a region table (R20). -/
def CoreImage.regionsBad (x : CoreImage) (split : Bool) (core : Nat) : Bool :=
  let rs := x.table
  decide (16 < x.regions.length) || x.regions.any RegionWords.reserved || anyOverlap rs ||
    rs.any fun r => decide (6 ≤ r.kind) || decide (13 ≤ r.fmt) ||
      (decide (r.size ≠ 0) && (decide (r.base < (coreShare split core).1) || decide ((coreShare split core).2 < r.past)))

/-- The faults of THVEC (R350). -/
def thvecBad (split : Bool) (core : Nat) (a : CodeAddr) : Bool :=
  inStore a || decide (fld a.toNat 16 15 ≠ 0) || decide (codePos a % 4 ≠ 0) ||
    (if !split then decide (0xFD58 < codePos a)
     else if core = 0 then decide (0x7D58 < codePos a)
     else decide (codePos a < 0x8000) || decide (0xFD58 < codePos a))

/-- A tile lacks the lading region or the mirror-reserve that LADING asks for (R365). -/
def CoreImage.mirrorsBad (x : CoreImage) (lading : Nat) : Bool :=
  decide (lading ≠ 0) &&
    (!(x.table.any fun r => decide (r.kind = 1) && decide (r.size * 4096 = lading)) ||
      !(x.table.any fun r => decide (r.kind = 5) && decide (2 * lading ≤ r.size * 4096)))

/-- The core images of a tile that the launch uses, with their numbers. -/
def TileImage.cores (x : TileImage) (split : Bool) : List (Nat × CoreImage) :=
  if split then [(0, x.core0), (1, x.core1)] else [(0, x.core0)]

/-- Launch contents lie outside every valid region (R20). -/
def TileImage.contentsBad (x : TileImage) (split : Bool) : Bool :=
  let rs := (x.cores split).flatMap fun c => c.2.table
  x.contents.any fun e => (List.range e.2.length).any fun i => (regionOf rs (e.1 + i)).isNone

/-- A dictionary over its limit (R36, R37). -/
def TileImage.dictBad (x : TileImage) (split : Bool) : Bool :=
  let exceeds (d : Table Nat) (n : Nat) : Bool := d.any fun e => decide (n ≤ e.1)
  if split then exceeds x.dict0 0x1000 || exceeds x.dict1 0x1000 else exceeds x.dict0 0x2000

/-- The region table of the core that a route entry serves (R207). -/
def TileImage.tableFor (x : TileImage) (split : Bool) (n : Nat) : List Region :=
  if split ∧ 128 ≤ n then x.core1.table else x.core0.table

/-- A receive range lies inside one region of KIND receive. -/
def receiveRange (rs : List Region) (base flits : Nat) : Bool :=
  decide (base % 128 = 0) && inRegion rs (fun r => decide (r.kind = 2)) base (128 * flits)

/-- The rank and the logical lane that an image's entry names, where an active entry has PMOD and PLANE (R398, log entry 21). -/
def optName (e : Nat) : Nat := fld e 87 25

/-- The faults of an optical entry whose peer is resolved (R398). -/
def optBad (rs : List Region) (group : Nat) (e : Nat) : Bool :=
  let k := optKind e
  decide (fld e 80 7 ≠ 0) || decide (fld e 72 2 ≠ 0) || decide (fld e 3 29 ≠ 0) || decide (5 ≤ k) ||
    (decide (k ≠ 0) && (decide (optLen e = 0) || decide (49152 < optLen e))) ||
    ((decide (k = 2) || decide (k = 4)) && !receiveRange rs (optBase e) (optLen e)) ||
    ((decide (k = 1) || decide (k = 2)) && decide (optPmod e / 32 ≠ group))

/-- What is wrong with a tile of an image, its routes and optical entries left out. -/
def TileImage.bad (x : TileImage) (h : Header256) : Bool :=
  ((x.cores h.split).any fun c => c.2.regionsBad h.split c.1 || thvecBad h.split c.1 c.2.thvec) || x.contentsBad h.split ||
    x.dictBad h.split || x.core0.mirrorsBad h.lading

/-! ## The route tables (R170, R210) -/

def Image.tile (im : Image) (rel : Nat) : TileImage := Table.get TileImage.zero im.tiles rel
def Image.route (im : Image) (rel n : Nat) : Nat := (Table.get (0 : BitVec 128) (im.tile rel).routes n).toNat

/-- The relative TIDs of a shape in sheaves, ascending. -/
def relTiles (w ht : Nat) : List Nat :=
  (List.range (2 * ht)).flatMap fun ly => (List.range (2 * w)).map fun lx => ly * 128 + lx

/-- A relative TID lies in the shape. -/
def inShape (w ht rel : Nat) : Bool := decide (rel % 128 < 2 * w) && decide (rel / 128 < 2 * ht)

/-- A leg from `a` to `b` stays in a partition of `n` tiles, or wraps in one that spans the torus; `down` is the direction of
falling coordinates. -/
def legStays (a b n full : Nat) (down : Bool) : Bool :=
  decide (n = full) || (if down then decide (b ≤ a) else decide (a ≤ b))

/-- A mode-1 path stays in the partition (R170, R209). -/
def pathStays (w ht r a b : Nat) : Bool :=
  legStays (a % 128) (b % 128) (2 * w) 128 (decide (fld r 33 1 = 1)) && legStays (a / 128) (b / 128) (2 * ht) 80 (decide (fld r 34 1 = 1))

/-- Two relative tiles are one hop apart in the partition. -/
def oneHop (w ht a b : Nat) : Bool :=
  let near (x y n full : Nat) : Bool :=
    decide (x + 1 = y) || decide (y + 1 = x) || (decide (n = full) && (decide (x = 0 ∧ y + 1 = full) || decide (y = 0 ∧ x + 1 = full)))
  (decide (a / 128 = b / 128) && near (a % 128) (b % 128) (2 * w) 128) || (decide (a % 128 = b % 128) && near (a / 128) (b / 128) (2 * ht) 80)

/-- Fields that must be zero in every entry, or that the entry's MODE gives no meaning (Table 10.1). -/
def routeFields (r : Nat) : Bool :=
  let z (i n : Nat) : Bool := decide (fld r i n = 0)
  let len := decide (routeLen r ≠ 0) && decide (routeLen r ≤ 49152)
  z 120 8 && z 92 4 && z 27 5 && z 14 2 &&
    match routeMode r with
    | 0 => decide (r = 0)
    | 1 => len && decide (routeWin r ≠ 0) && z 35 5 && z 64 24 && z 88 4
    | 2 => len && z 32 8 && z 40 8 && z 88 4 && z 96 24
    | 3 => len && z 16 8 && z 40 8 && z 91 1 && decide (routeRop r ≤ 5)
    | 4 => len && z 16 8 && z 40 8 && z 96 24 && decide (routeRop r ≤ 5)
    | _ => false

/-- The tree entries of an image with one tree id: relative TID, entry number, entry. -/
def Image.treeEntries (im : Image) (w ht id : Nat) : List (Nat × Nat × Nat) :=
  (relTiles w ht).flatMap fun rel => (im.tile rel).routes.filterMap fun e =>
    let r := e.2.toNat
    if (routeMode r = 3 ∨ routeMode r = 4) ∧ routeTree r = id then some (rel, e.1, r) else none

/-- Following parents reaches the root. -/
def reachesRoot (es : List (Nat × Nat × Nat)) : Nat → Nat → Bool
  | 0, _ => false
  | n + 1, rel =>
    match es.find? fun e => decide (e.1 = rel) with
    | none => false
    | some e => if routeMode e.2.2 = 4 then true else reachesRoot es n (routeDest e.2.2)

/-- What a member of a tree must satisfy (R210). -/
def Image.treeGood (im : Image) (h : Header256) (w ht rel n r : Nat) : Bool :=
  let es := im.treeEntries w ht (routeTree r)
  match es.filter fun e => decide (routeMode e.2.2 = 4) with
  | [root] =>
    let down := routeDown root.2.2
    decide ((es.filter fun e => decide (e.1 = rel)).length = 1) && reachesRoot es (es.length + 1) rel &&
      decide (routeLen r = routeLen root.2.2) && decide (routeRop r = routeRop root.2.2) &&
      (if routeMode r = 4 then decide (routeDest r = rel) && receiveRange ((im.tile rel).tableFor h.split n) (routeBase r) (routeLen r)
       else oneHop w ht rel (routeDest r) && inShape w ht (routeDest r) &&
        (if down then receiveRange ((im.tile rel).tableFor h.split n) (routeBase r) (routeLen r) else decide (routeBase r = 0)))
  | _ => false

/-- A route entry satisfies what R210 asks of it at every origin. -/
def Image.routeGood (im : Image) (h : Header256) (w ht rel n r : Nat) : Bool :=
  let d := routeDest r
  let peer := im.route d (routePeer r)
  let paired (mode : Nat) : Bool :=
    inShape w ht d && decide (routeMode peer = mode) && decide (routeDest peer = rel) && decide (routePeer peer = n) &&
      decide (routeLen peer = routeLen r)
  decide (n < 256) && routeFields r &&
    match routeMode r with
    | 0 => true
    | 1 => paired 2 && pathStays w ht r rel d
    | 2 => paired 1 && receiveRange ((im.tile rel).tableFor h.split n) (routeBase r) (routeLen r)
    | _ => im.treeGood h w ht rel n r

/-- The optical checks of error 0x06, which reject the launch on every module of a group program (R398). -/
def State.opticsBad (s : State) (im : Image) (w ht : Nat) : Bool :=
  im.peersDiffer || (relTiles w ht).any fun rel => (im.tile rel).opts.any fun e =>
    decide (64 ≤ e.1) || optBad (im.tile rel).core0.table (s.modid / 32) (optResolved e.2.toNat (s.peerOf (optName e.2.toNat)) 0).toNat

/-- The other checks of error 0x06 that do not depend on the origin. -/
def Image.bad (im : Image) (h : Header256) (w ht : Nat) : Bool :=
  decide (im.digest ≠ h.digest) ||
    (relTiles w ht).any fun rel => (im.tile rel).bad h ||
      (im.tile rel).routes.any fun e => !im.routeGood h w ht rel e.1 e.2.toNat

/-! ## Placement (R166, R202) -/

/-- A relative TID at an origin in sheaves. -/
def absAt (ox oy rel : Nat) : Nat := (2 * oy + rel / 128) % 80 * 128 + (2 * ox + rel % 128) % 128

/-- The launch can use the rectangle at an origin. -/
def Image.usable (im : Image) (w ht ox oy : Nat) : Bool :=
  (relTiles w ht).all fun rel => (im.tile rel).routes.all fun e =>
    let r := e.2.toNat
    let a := absAt ox oy rel
    let d := absAt ox oy (routeDest r)
    match routeMode r with
    | 1 => decide (routeElat r = 4 + pathLatency (pathOf r a d))
    | 3 => decide (routeElat r = hopLatency a d)
    | _ => true

/-- The origins of the scan, in its order: the zone-aligned ones, then all. -/
def scanOrigins (gsize w ht : Nat) : List (Nat × Nat) :=
  let every (step : Nat) : List (Nat × Nat) :=
    (List.range (40 / step)).flatMap fun j => (List.range (64 / step)).map fun i => (step * i, step * j)
  (every 8 ++ every 1).filter fun o =>
    decide (o.1 + w ≤ 64) && decide (o.2 + ht ≤ 40) && (decide (gsize ≠ 2) || (decide (o.1 % 2 = 0) && decide (o.2 % 2 = 0)))

/-- No sheaf of the rectangle belongs to a placed partition. -/
def State.rectFree (s : State) (w ht ox oy : Nat) : Bool :=
  s.parts.all fun e =>
    let p := e.2
    decide (p.status = .none) || decide (ox + w ≤ p.ox) || decide (p.ox + p.width ≤ ox) || decide (oy + ht ≤ p.oy) ||
      decide (p.oy + p.height ≤ oy)

/-- A launch at a higher level waits (R202). -/
def State.higherWaits (s : State) (prio : Nat) : Bool :=
  (List.range 16).any fun q => decide ((s.queue q).block = .place) && decide (prio < (s.queue q).prio)

/-- A PID that no placed partition has: the first from a free value on (log entry 3). -/
def State.newPid (s : State) : Nat :=
  let n := (Config.freeBits s.free).toNat % 2 ^ 16
  ((List.range 2561).map fun i => (n + i) % 2 ^ 16).find? (fun p => decide ((s.part p).status = .none)) |>.getD 0

/-- The blocks of the image that a header names: BINTAB, ROUTES, REGIONS. -/
def Header256.blocks (h : Header256) : List Nat := [h.bintab, h.routes, h.regions]

/-- The name of an image: where its blocks begin in the second tier (log entry 4). -/
def blocksKey (starts : List Nat) : Nat := starts.foldl (fun k a => k * 2 ^ 44 + a) 0

/-- The image whose blocks begin at the translations of a header's addresses; an address that is not mapped counts as 0. -/
def State.imageKey (s : State) (ctx : Nat) (h : Header256) : Nat := blocksKey (h.blocks.map fun a => (s.translate ctx a).getD 0)

/-- The image of a name. -/
def State.image (s : State) (key : Nat) : Option Image := Table.get none s.images key

/-- The pages of an image's blocks, from the addresses of a header. -/
def Image.pages (im : Image) (h : Header256) : List Nat := (h.blocks.zip im.sizes).flatMap fun e => pagesOf e.1 e.2

/-- Every page of the blocks that a header names is mapped (R253): the first byte of each, and all of them where an image begins there. -/
def State.blocksMapped (s : State) (ctx key : Nat) (h : Header256) : Bool :=
  (h.blocks.all fun a => s.mapped ctx a 1) &&
    match s.image key with
    | none => true
    | some im => (h.blocks.zip im.sizes).all fun e => s.mapped ctx e.1 e.2

/-- The image that a header names, read through a context: its pages translate to the frames that hold it. -/
def State.readImage (s : State) (ctx key : Nat) (h : Header256) : Option Image :=
  (s.image key).filter fun im => decide ((im.pages h).map (fun p => fld (s.leaf ctx (p * 2 ^ 21)).toNat 0 23) = im.frames)

/-- The manifest of a launch (R432). -/
def State.launchManifest (s : State) (pid : Nat) (l : Launch) (im : Image) : Manifest :=
  { firmware := s.firmware, digest := l.hdr.digest, tables := im.tables, regions := im.regionTables,
    shape := l.width + l.height * 2 ^ 8 + l.hdr.gsize * 2 ^ 16 + bitOf l.hdr.split * 2 ^ 24,
    group := l.hdr.grank + l.hdr.gcount * 2 ^ 16, pid := pid, live := true, touched := [], csr5 := none }

/-- Place a launch at an origin: its partition waits to be loaded. -/
def State.place (s : State) (q : Nat) (l : Launch) (im : Image) (ox oy : Nat) : State :=
  let pid := s.newPid
  let p : Part := { Part.none with
    status := .waiting, hdr := l.hdr, image := l.image, queue := q, token := l.token.map fun t => (q, t), ox := ox, oy := oy,
    width := l.width, height := l.height, hints := (s.readHints q l.hdr).getD [], resumeSave := l.save }
  let s1 := ({ s.draw with manifests := Table.set none s.manifests q (some (s.launchManifest pid l im)) }).setPart pid p
  ((s1.onQueue q fun x => { x with block := .start pid, launch := none }).post s.now rankAfter (.launchPlacement q)).retryPlacement

/-- Try to place the launch of a queue (R202). The guard of a time group runs no task: a launch waits on it (R418, log entry 21). -/
def State.tryPlace (s : State) (q : Nat) (l : Launch) : State :=
  match s.image l.image with
  | none => s
  | some im =>
    if s.higherWaits (s.queue q).prio ∨ s.guard_ = some s.modid then s
    else
      match (scanOrigins l.hdr.gsize l.width l.height).find? fun o =>
          s.rectFree l.width l.height o.1 o.2 && im.usable l.width l.height o.1 o.2 with
      | some o => s.place q l im o.1 o.2
      | none => s

/-! ## Loading a tile (R35, R204) -/

/-- What a step of the agenda does to the tiles of a rectangle before they are loaded anew. -/
def eventOf (ts : List Nat) (e : Event) : Bool :=
  match e with
  | .startEntry c | .bundleIssue c _ _ | .slipTimeout c _ | .handlerEntry c _ | .resultLanding c | .storePerform c _ _
  | .delayedArrival c _ | .endArrival c _ | .waitBoundExceeded c _ _ | .segmentCommit c _ | .signatureMismatch c _ _ =>
    ts.contains (tileOf c)
  | .streamBeat t _ _ _ _ | .windowBeatEntry t _ _ _ | .windowOutputWrite t _ _ _ _ | .nestStart t _ | .arrayStep t _ _ _
  | .mclrPerform t _ _ | .bankSwap t _ | .mredMerge t _ _ | .slotDrainEnd t _ => ts.contains t
  | e => flitOf ts e

/-- A step that a partition's own timeline schedules. -/
def partEvent (pid : Nat) (e : Event) : Bool :=
  match e with
  | .lockRelease p _ _ | .phaserRelease p _ _ | .stragglerEvent p _ | .rerunRestart p | .roundCopy p => decide (p = pid)
  | _ => false

/-- The dictionary of a tile's code store (R36, R37). -/
def TileImage.dict (x : TileImage) (split : Bool) : Table Nat :=
  let put (t : Table Nat) (l : Table Nat) (off : Nat) : Table Nat := l.foldl (fun z e => Table.set 0 z (e.1 + off) e.2) t
  if split then put (put [] x.dict0 0) x.dict1 0x1000 else put [] x.dict0 0

/-- An optical entry as a launch loads it on lane `l`: resolved into the active table, and into the standby table, which holds the coming
version where a swap is armed (R398, R408). -/
def State.loadedOpt (s : State) (l e : Nat) : OptChan :=
  let v := optResolved e (s.peerOf (optName e)) s.topver
  { OptChan.reset with entry := v, standby := if s.armed.isSome then s.standbyFor l (optName e) v else v, name := optName e }

/-- The tile as a launch loads it; what the spares and counts of the chip hold stays. -/
def State.loadedTile (s : State) (p : Part) (x : TileImage) (t : Nat) : Tile :=
  let old := s.tile t
  let opts := match portLaneOf t with
    | none => []
    | some l => x.opts.foldl (fun z e => Table.set OptChan.reset z e.1 (s.loadedOpt l e.2.toNat)) []
  { Tile.idle with
    store := Memory.writeAll [] (x.contents.flatMap fun e => atAddr e.1 e.2), dict := x.dict p.hdr.split,
    index := x.index.foldl (fun z e => Table.set 0x2000 z e.1 e.2) [], indexRest := 0x2000,
    routes := x.routes.foldl (fun z e => Table.set (0 : BitVec 128) z e.1 e.2) [], opts := opts,
    lane := { old.lane.discard with gapFrom := 0, gapTo := 0 }, issueOrder := old.issueOrder,
    ecc := old.ecc, errors := old.errors, eccTicks := old.eccTicks, testRows := old.testRows, marked := old.marked,
    pairTest := old.pairTest || old.pairDue }

/-- A code address of a core: core 1 of a split tile enters the second half of the index area (log entry 27). -/
def coreEntry (a : CodeAddr) (core : Nat) : CodeAddr := if inStore a ∨ core = 0 then a else a + 0x8000

/-- A core as a launch loads it, to begin at `entry` in `phase`. -/
def State.loadedCore (s : State) (pid : Nat) (p : Part) (x : CoreImage) (t core : Nat) (entry : CodeAddr) (phase : Nat) : Core :=
  { Core.idle with
    gen := (s.core (2 * t + core)).gen + 1, part := some pid, pos := ((gangTiles p.hdr.gsize t).idxOf? t).getD 0, gsize := p.hdr.gsize,
    split := p.hdr.split, coreNo := core, thvec := x.thvec, regions := x.table, parkV := x.parkV, parkW := x.parkW, phase := phase,
    pc := coreEntry entry core, fresh := true }

/-- Load one tile. -/
def State.loadTile (s : State) (pid : Nat) (p : Part) (im : Image) (entry : CodeAddr) (phase t : Nat) : State :=
  let x := im.tile (p.rel t)
  let s1 := s.setTile t (s.loadedTile p x t)
  (x.cores p.hdr.split).foldl (fun z c => z.setCore (2 * t + c.1) (z.loadedCore pid p c.2 t c.1 entry phase)) s1

/-- The phasers of a partition at a start: ph0 counts every core, and the others those that the image registers (R175, R228). -/
def Image.phasers (im : Image) (p : Part) : Table Phaser :=
  let member (m : PhMode) : Member := { Member.none with mode := some m, view := some m }
  let put (t : Table Phaser) (ph c : Nat) (m : PhMode) : Table Phaser :=
    let x := Table.get Phaser.reset t ph
    let y := { x with members := Table.set Member.none x.members c (member m) }
    Table.set Phaser.reset t ph { y with roster := y.counted }
  p.tiles.foldl (fun z t => ((im.tile (p.rel t)).cores p.hdr.split).foldl (fun y c =>
    c.2.phasers.foldl (fun w e => if e.1 = 0 then w else put w e.1 (2 * t + c.1) e.2) (put y 0 (2 * t + c.1) .sw)) z) []

/-- The TLBs of a partition's ports are flushed (R258). -/
def State.flushTlbs (s : State) (p : Part) : State :=
  (((p.tiles.filter isEdge).map portOf).eraseDups.foldl (fun z port =>
    z.setTlb port { z.tlb port with entries := (z.tlb port).entries.filter fun e => e.dying }) s).recheckDrains

/-- Load every tile of a partition: from the image, to begin at `entry` in `phase`. A move that waits for its next exchange phase keeps it
forced, and rows queued, marks and pair tests wait for its next release. -/
def State.loadPart (s : State) (pid : Nat) (im : Image) (entry : CodeAddr) (phase : Nat) : State :=
  let p := s.part pid
  let ts := p.tiles
  let s1 := (s.dropEvents fun v => eventOf ts v.ev || partEvent pid v.ev).dropHeld ts
  let s2 := { s1 with
    waiting := s1.waiting.filter fun e => !ts.contains (e.1 / 8), mreds := s1.mreds.filter fun e => !ts.contains e.1 }
  let s3 := (s2.colls.filter fun e => (e.2.parts.any fun k => ts.contains (tileOf k.core)) && !e.2.commit).foldl (fun z e => z.dropColl e.1) s2
  let s4 := ts.foldl (fun z t => z.loadTile pid p im entry phase t) (s3.resetMoves pid)
  (s4.onPart pid fun y => { y with
    phasers := im.phasers p, windowed := false, winNext := false, forced := s4.moveOwed pid, lk := 0, rerun := none }).flushTlbs p

/-! ## The start tick (R204, R205) -/

/-- The cycle of a tick. -/
def State.cycleOf (s : State) (t : Nat) : Nat := ((t : Int) - s.tickOff - (if s.adjAt < s.now then s.adj else 0)).toNat

def roundUp64 (n : Nat) : Nat := (n + 63) / 64 * 64

/-- Every core of a partition starts at T0 + POS; the queue that launched it proceeds at T0. -/
def State.startAt (s : State) (pid t0 : Nat) : State :=
  let s1 := s.onPart pid fun p => { p with status := .running, t0 := t0 }
  let s2 := (s1.part pid).cores.foldl (fun z c => z.post (t0 + (z.core c).pos) rankRelease (.startEntry c)) s1
  (List.range 16).foldl (fun z q =>
    if (z.queue q).block = .start pid then z.post t0 rankAfter (.launchPlacement q) else z) s2

/-- The loading of a partition's tiles ends after a free time, and the start tick is fixed. -/
def State.startAlone (s : State) (pid : Nat) : State :=
  s.draw.startAt pid (s.cycleOf (roundUp64 (s.tickAt (s.now + Config.loadDelay s.free) + 4096)))

/-- The parts of a group program that are loaded here and wait for its start tick. -/
def State.groupWaiting (s : State) (gtag : Nat) : List Nat :=
  (s.parts.filter fun e => decide (e.2.status = .waiting) && decide (e.2.hdr.gcount ≠ 0) && decide (e.2.hdr.gtag = gtag) && decide (e.2.t0 ≠ 0)).map Prod.fst

/-- No timeout of a group program is due any more. -/
def State.dropTimeouts (s : State) (gtag : Nat) : State :=
  s.dropEvents fun v => match v.ev with
    | .groupColaunchTimeout g => decide (g = gtag)
    | _ => false

/-- The cycle at which the timeout of a group program is due: a second after the first report so far, of this module or of another. -/
def State.timeoutAt (s : State) (gtag : Nat) : Option Nat :=
  (s.agenda.find? fun v => match v.ev with
    | .groupColaunchTimeout g => decide (g = gtag)
    | _ => false).map (·.at_)

/-- A report at a cycle: the timeout is due a second after the first of them. -/
def State.groupReport (s : State) (gtag done : Nat) : State :=
  (s.dropTimeouts gtag).post (((s.timeoutAt gtag).map fun t => min t (done + second)).getD (done + second)) rankAfter (.groupColaunchTimeout gtag)

/-- The loading of a group program's part ends: the start tick waits for every part, for a second from the first report (R205). Where
all of them are on this module, it is agreed at once. -/
def State.startGroup (s : State) (pid : Nat) : State :=
  let done := s.now + Config.loadDelay s.free
  let h := (s.part pid).hdr
  let s1 := (s.draw.onPart pid fun p => { p with t0 := done }).groupReport h.gtag done
  if (s1.groupWaiting h.gtag).length = h.gcount then
    s1.post ((s1.groupWaiting h.gtag).foldl (fun n p => max n (s1.part p).t0) done) rankAfter (.groupT0Agreement h.gtag [])
  else s1

/-- GROUP_T0_AGREEMENT: every part has reported; `ticks` are those of the other modules. -/
def execGroupT0Agreement (gtag : Nat) (ticks : List Nat) (s : State) : Host.Outcome State Fault Refusal :=
  .next (
    let pids := (s.groupWaiting gtag).filter fun p => decide ((s.part p).t0 ≤ s.now)
    match pids with
    | [] => s
    | p :: _ =>
      if pids.length + ticks.length < (s.part p).hdr.gcount then s
      else
        let t0 := roundUp64 ((pids.map fun p => s.tickAt (s.part p).t0).foldl max (ticks.foldl max 0) + 3200)
        pids.foldl (fun z p => (z.onPart p fun q => { q with here := pids.length }).startAt p (s.cycleOf t0)) (s.dropTimeouts gtag))

/-- Every part of a group program that has not started is rejected with an error (R205, R398). -/
def State.rejectGroup (s : State) (gtag code : Nat) : State :=
  let mine (h : Header256) : Bool := decide (h.gcount ≠ 0) && decide (h.gtag = gtag)
  let s1 := (List.range 16).foldl (fun z q =>
    let x := z.queue q
    match x.block, x.launch with
    | .start pid, _ =>
      if mine (z.part pid).hdr ∧ (z.part pid).status = .waiting then
        ((z.freeRect pid).onQueue q fun y => { y with block := .none }).haltQueue q code
      else z
    | .place, some l =>
      if mine l.hdr then (z.onQueue q fun y => { y with block := .none, launch := none }).haltQueue q code else z
    | _, _ => z) (s.dropTimeouts gtag)
  s1.retryPlacement

/-- GROUP_COLAUNCH_TIMEOUT: every part of the group program that has not started is rejected with error 0x0A. -/
def execGroupColaunchTimeout (gtag : Nat) (s : State) : Host.Outcome State Fault Refusal := .next (s.rejectGroup gtag 0x0A)

/-- START_ENTRY: a core observes T0 and is ready for its first bundle (R35, R40, R204). -/
def execStartEntry (core : Nat) (s : State) : Host.Outcome State Fault Refusal :=
  .next (
    let x := s.core core
    match x.part with
    | none => s
    | some _ =>
      let s1 := (s.onCore core fun y => { y with status := .running, relAt := s.now, due := s.now }).expandEntry core x.pc
      let s2 := s1.onCore core fun y => { y with relSnap := some (s1.snapshot core) }
      if x.follows then s2 else s2.post (s.now + s2.nextWait core) rankIssue (.bundleIssue core x.gen none))

end Sys2Proof.Machine
end

