-- ==== Sys2Proof/Machine/Restore.lean ====
section
/-! DEFINITION. LAUNCH, LAUNCHI and RESUME, their placement, the save area of a pre-emption, and the round restore (09 R198-R204,
18 R366-R369, 21 R422). -/

namespace Sys2Proof.Machine

/-! ## The save area (R368, Tables 18.2 and 18.3) -/

/-- A number of `n` bytes at a device virtual address; what is not mapped reads as 0. -/
def State.ctxNat (s : State) (ctx va n : Nat) : Nat := ofBytes ((s.ctxBytes ctx va n).getD [])

def State.ctxPut (s : State) (ctx va v n : Nat) : State := s.ctxWrite ctx (atAddr va (toBytes v n))

/-- An entry of the spill map in a save area: the file's code is that of FILE, and a unit of a spill region has bit 31 set
(log entry 28). -/
def ParkEntry.word (e : ParkEntry) : Nat :=
  2 ^ 63 + (match e.file with
    | .v => 2
    | .w => 3) * 2 ^ 48 + e.reg * 2 ^ 32 +
  (match e.place with
    | .reg n => n
    | .mem a => 2 ^ 31 + a)

def readPark (v : Nat) : ParkEntry :=
  { file := if fld v 48 3 = 2 then .v else .w, reg := fld v 32 10,
    place := if fld v 31 1 = 0 then .reg (fld v 0 31) else .mem (fld v 0 31) }

/-- The value that an entry parks. -/
def State.parked (s : State) (c : Nat) (e : ParkEntry) : Nat :=
  match e.place with
  | .reg n => ((s.core c).regs.get (vecId (VFile.other e.file) n)).toNat
  | .mem a => s.storeNat (tileOf c) a 64

/-- The CSRs of a register record, in its order. -/
def savedCsrs : List Nat := [0x020, 0x021, 0x022, 0x023, 0x024, 0x030, 0x031, 0x032, 0x033, 0x040, 0x041, 0x042]
def savedTraps : List Nat := [0x050, 0x051, 0x052, 0x053, 0x054, 0x055]

/-- A pending extension in a save area: bit 62 says that its guard was not zero (log entry 28). -/
def PendExt.word (e : PendExt) : Nat := 2 ^ 63 + bitOf e.bad * 2 ^ 62 + e.payload.toNat
def readExt (v : Nat) : PendExt := { payload := BitVec.ofNat 51 v, bad := decide (fld v 62 1 = 1) }

/-- A pending transfer in a save area: its target, and the low bits of its own address (log entry 28). -/
def Xfer.word (x : Xfer) : Nat := 2 ^ 63 + fld x.origin.toNat 0 31 * 2 ^ 32 + x.target.toNat
def readXfer (v : Nat) : Xfer :=
  { target := BitVec.ofNat 32 (fld v 0 32), origin := BitVec.ofNat 32 (fld v 32 31 + fld v 31 1 * 2 ^ 31) }

/-- The tokens of a token store, as they are saved. -/
def State.tokenWords (s : State) (l : List Token) : List Nat :=
  l.map fun t => match t.pushed with
    | some (n, c) => n % 2 ^ 16 * 2 ^ 48 + s.tickAt c % 2 ^ 48
    | none => s.tickAt t.promise % 2 ^ 48

def descWords (d : Desc) : List Nat := [d.src, d.dst, d.d0, d.d1, d.d2, d.d3, d.ctl, d.idx].map BitVec.toNat

/-- Numbers of `n` bytes, one after another. -/
def inRow (at_ n : Nat) (vs : List Nat) : List (Nat × Nat × Nat) := vs.zipIdx.map fun e => (at_ + n * e.2, e.1, n)

/-- The register record of a core: offsets, values and sizes in bytes. -/
def State.registerRecord (s : State) (c : Nat) : List (Nat × Nat × Nat) :=
  let x := s.core c
  let r := x.regs
  let t := s.tile (tileOf c)
  let ext (sl : Slot) : Nat := ((r.exts.find? fun e => decide (e.1 = sl)).map fun e => e.2.word).getD 0
  let all (f : Nat → RegId) (n : Nat) : List Nat := (List.range n).map fun i => (r.get (f i)).toNat
  inRow 0 64 (all .v 640) ++ inRow 0xA000 64 (all .w 640) ++ inRow 0x14000 8 (all .k 32 ++ all .a 32 ++ all .x 16) ++
  [(0x14280, fromLanes 1 (all .p 16), 8), (0x14300, r.loops.length, 8)] ++
  inRow 0x14308 4 (r.loops.reverse.flatMap fun l => [l.start.toNat, l.count.toNat, l.index.toNat, 0]) ++
  inRow 0x14400 8 (savedCsrs.map fun n => (s.csrRead c n).toNat) ++ inRow 0x14480 8 (savedTraps.map fun n => (s.csrRead c n).toNat) ++
  inRow 0x14500 8 (allSlots.map ext ++ [(r.xfer.map Xfer.word).getD 0]) ++ [(0x14580, x.lkstat.toNat, 8)] ++
  inRow 0x14588 1 ((List.range 4).map fun i => (t.store4 i).length) ++
  inRow 0x14600 8 ((List.range 6).flatMap fun e => descWords (s.engine (tileOf c) e).desc) ++
  inRow 0x14800 8 (shadowKeys.map (Shadow.word t.array.shadow)) ++ inRow 0x15000 8 (r.spills.map ParkEntry.word) ++
  ((List.range 4).flatMap fun i => inRow (0x15800 + 512 * i) 8 (s.tokenWords (t.store4 i))) ++
  inRow 0x16000 64 (r.spills.map (s.parked c)) ++ [(0x1FFFF, bitOf t.array.vis, 1)]

/-- Write a tile's part of a save area at `base`. -/
def State.saveTile (s : State) (ctx base t : Nat) (p : Part) : State :=
  let cs := if p.hdr.split then [2 * t, 2 * t + 1] else [2 * t]
  let s1 := cs.zipIdx.foldl (fun z e =>
    (s.registerRecord e.1).foldl (fun y w => y.ctxPut ctx (base + 2 ^ 17 * e.2 + w.1) w.2.1 w.2.2) z) s
  let b := base + 2 ^ 17 * cs.length
  let s2 := s1.ctxWrite ctx (atAddr b (Memory.bytes (s.tile t).acc0 0 (2 ^ 18) ++ Memory.bytes (s.tile t).acc1 0 (2 ^ 18)))
  s2.ctxWrite ctx (atAddr (b + 2 ^ 19) (s.storeBytes t (s.core (2 * t)).lading p.hdr.lading))

/-- Write the save area of a partition. -/
def State.savePart (s : State) (ctx save pid : Nat) : State :=
  let p := s.part pid
  let s1 := s.ctxWrite ctx (atAddr save (List.replicate p.saveSize 0))
  let s2 := s1.ctxPut ctx save
    (p.hdr.iver + (p.width + p.height * 2 ^ 8 + p.hdr.gsize * 2 ^ 16 + bitOf p.hdr.split * 2 ^ 24) * 2 ^ 32 + p.roundPhase.getD 0 * 2 ^ 64) 12
  p.tiles.zipIdx.foldl (fun z e => z.saveTile ctx (save + 4096 + e.2 * p.saveTile) e.1 p) s2

/-- PREEMPT_SAVE: the save area is written, the rectangle freed, the queue unblocked, and the pre-emption recorded (R203, R206). -/
def execPreemptSave (pid : Nat) (s : State) : Host.Outcome State Fault Refusal :=
  .next (match (s.part pid).preempt with
    | none => s
    | some (q, save) => (((s.savePart q save pid).freeRect pid).bareRecord (s.part pid).queue 4 pid).retryPlacement)

/-! ## Restoring a save area (R368, R369) -/

/-- Read `n` numbers of `w` bytes. -/
def State.readRow (s : State) (ctx at_ w n : Nat) : List Nat := (List.range n).map fun i => s.ctxNat ctx (at_ + w * i) w

/-- A table from numbers in a row. -/
def tableOf {w : Nat} (vs : List Nat) : Table (BitVec w) := vs.zipIdx.foldl (fun t e => Table.set 0 t e.2 (BitVec.ofNat w e.1)) []

/-- The registers of a record. -/
def State.savedRegs (s : State) (ctx b : Nat) : Regs :=
  let n (o w : Nat) : Nat := s.ctxNat ctx (b + o) w
  let row (o w k : Nat) : List Nat := s.readRow ctx (b + o) w k
  let loops := (List.range (min (n 0x14300 8) 6)).map fun i =>
    let o := 0x14308 + 16 * i
    ({ start := BitVec.ofNat 32 (n o 4), count := BitVec.ofNat 32 (n (o + 4) 4), index := BitVec.ofNat 32 (n (o + 8) 4) } : Loop)
  let exts := (allSlots.zip (row 0x14500 8 5)).filterMap fun e => if fld e.2 63 1 = 1 then some (e.1, readExt e.2) else none
  let xf := n 0x14528 8
  let spills := ((row 0x15000 8 256).filter fun v => decide (fld v 63 1 = 1)).map readPark
  let r0 : Regs := { Regs.start with
    v := tableOf (row 0 64 640), w := tableOf (row 0xA000 64 640), k := tableOf (row 0x14000 8 32), a := tableOf (row 0x14100 8 32),
    x := tableOf (row 0x14200 8 16), p := BitVec.ofNat 16 (n 0x14280 8 / 2 * 2 + 1), loops := loops.reverse, exts := exts,
    xfer := if fld xf 63 1 = 1 then some (readXfer xf) else none, spills := spills }
  let order : List Nat := [0x020, 0x021, 0x022, 0x023, 0x024, 0x032, 0x030, 0x031, 0x033, 0x040, 0x041, 0x042]
  let csr (i : Nat) : Word := BitVec.ofNat 64 (n (0x14400 + 8 * ((savedCsrs.idxOf? i).getD 0)) 8)
  let r1 := order.foldl (fun r i => r.csrWrite i (csr i)) r0
  (savedTraps.zip (row 0x14480 8 6)).foldl (fun r e => r.csrWrite e.1 (BitVec.ofNat 64 e.2)) r1

/-- A descriptor from its eight words. -/
def readDesc (vs : List Nat) : Desc :=
  let f (i : Nat) : Word := BitVec.ofNat 64 ((vs[i]?).getD 0)
  { src := f 0, dst := f 1, d0 := f 2, d1 := f 3, d2 := f 4, d3 := f 5, ctl := f 6, idx := f 7 }

/-- The saved tokens of a store: the cycle of a push is the last whose TICK ends in the saved bits. -/
def State.savedTokens (s : State) (ctx b tid first : Nat) : List Token :=
  (s.readRow ctx (b + 0x15800 + 512 * tid) 8 (s.ctxNat ctx (b + 0x14588 + tid) 1)).zipIdx.map fun e =>
    let at_ := s.now - (s.tickAt s.now % 2 ^ 48 + 2 ^ 48 - fld e.1 0 48) % 2 ^ 48
    { id := first + e.2, promise := at_, pushed := some (fld e.1 48 16, at_) }

/-- Restore a core's part of a save area. -/
def State.restoreCore (s : State) (ctx b c : Nat) : State :=
  let r := s.savedRegs ctx b
  let s1 := s.onCore c fun x => { x with
    regs := r, lkstat := BitVec.ofNat 64 (s.ctxNat ctx (b + 0x14580) 8), hm := decide (fld (s.ctxNat ctx (b + 0x144A8) 8) 1 1 = 1) }
  let vals := s.readRow ctx (b + 0x16000) 64 r.spills.length
  (r.spills.zip vals).foldl (fun z e => match e.1.place with
    | .mem a => z.bankWrite (tileOf c) (atAddr a (toBytes e.2 64))
    | .reg _ => z) s1

/-- Restore a tile's part of a save area: the tile-level entries of the first core's record. -/
def State.restoreTile (s : State) (ctx base t : Nat) (p : Part) : State :=
  let cs := if p.hdr.split then [2 * t, 2 * t + 1] else [2 * t]
  let s1 := cs.zipIdx.foldl (fun z e => z.restoreCore ctx (base + 2 ^ 17 * e.2) e.1) s
  let acc := base + 2 ^ 17 * cs.length
  let first := (s.tile t).issueOrder
  let s2 := (List.range 6).foldl (fun z e =>
    z.setEngine t e { z.engine t e with desc := readDesc (s.readRow ctx (base + 0x14600 + 64 * e) 8 8) }) s1
  let shadow := (shadowKeys.zip (s.readRow ctx (base + 0x14800) 8 31)).foldl (fun z e => Shadow.put z e.1 (BitVec.ofNat 64 e.2)) []
  let bank (o : Nat) : Memory := Memory.writeAll [] (atAddr 0 ((s.ctxBytes ctx (acc + o) (2 ^ 18)).getD []))
  let s3 := s2.onTile t fun x => { x with
    acc0 := bank 0, acc1 := bank (2 ^ 18),
    array := { x.array with shadow := shadow, vis := decide (s.ctxNat ctx (base + 0x1FFFF) 1 ≠ 0) },
    tokens := (List.range 4).foldl (fun z i => Table.set [] z i (s.savedTokens ctx base i (first + 64 * i))) [],
    issueOrder := first + 256 }
  s3.bankWrite t (atAddr (s3.core (2 * t)).lading ((s.ctxBytes ctx (acc + 2 ^ 19) p.hdr.lading).getD []))

/-- Load a partition from a save area. -/
def State.loadSaved (s : State) (pid : Nat) (im : Image) (ctx save : Nat) : State :=
  let p := s.part pid
  let s1 := s.loadPart pid im p.hdr.resume (s.ctxNat ctx (save + 8) 4)
  p.tiles.zipIdx.foldl (fun z e => z.restoreTile ctx (save + 4096 + e.2 * p.saveTile) e.1 p) s1

/-! ## Launches (R198-R204) -/

/-- Check a launch and let it wait for a rectangle; an empty one completes at once (R200, R201). -/
def State.beginLaunch (s : State) (q : Nat) (l : Launch) : State :=
  if headerBad l.hdr l.width l.height then s.haltQueue q 0x05
  else if l.width = 0 ∨ l.height = 0 then (s.signal (l.token.map fun t => 16 * q + t)).idleFrom q
  else if !s.blocksMapped q l.image l.hdr then s.haltQueue q 0x08
  else match s.readHints q l.hdr, s.readImage q l.image l.hdr with
    | none, _ => s.haltQueue q 0x08
    | some _, none => s.haltQueue q 0x06
    | some _, some im =>
      if s.opticsBad im l.width l.height then
        (if l.hdr.gcount = 0 then s else s.rejectGroup l.hdr.gtag 0x06).haltQueue q 0x06
      else if im.bad l.hdr l.width l.height ||
          !((scanOrigins l.hdr.gsize l.width l.height).any fun o => im.usable l.width l.height o.1 o.2) then s.haltQueue q 0x06
      else (s.onQueue q fun x => { x with block := .place, launch := some l }).post s.now rankAfter (.launchPlacement q)

/-- The header at an address. -/
def State.header (s : State) (q hdr : Nat) : Option Header256 := (s.ctxBytes q hdr 256).map readHeader

/-- LAUNCH. -/
def execLaunch (q : Nat) (sig : Bool) (tok : BitVec 4) (hdr : BitVec 48) (s : State) : Host.Outcome State Fault Refusal :=
  onQueues q s fun s =>
    let s1 := s.takeCommand q 1
    match s1.header q hdr.toNat with
    | none => s1.haltQueue q 0x08
    | some h =>
      s1.beginLaunch q { hdr := h, image := s1.imageKey q h, width := h.width, height := h.height, token := if sig then some tok.toNat else none,
                         save := none }

/-- LAUNCHI: the shape of the size record, which may not exceed the header's (R200). -/
def execLaunchi (q : Nat) (sig : Bool) (tok : BitVec 4) (hdr size : BitVec 48) (s : State) : Host.Outcome State Fault Refusal :=
  onQueues q s fun s =>
    let s1 := s.takeCommand q 2
    match s1.header q hdr.toNat, s1.ctxBytes q size.toNat 8 with
    | some h, some bs =>
      let v := ofBytes bs
      if h.width < fld v 0 8 ∨ h.height < fld v 8 8 ∨ fld v 16 48 ≠ 0 then s1.haltQueue q 0x05
      else
        s1.beginLaunch q { hdr := h, image := s1.imageKey q h, width := fld v 0 8, height := fld v 8 8,
                           token := if sig then some tok.toNat else none, save := none }
    | _, _ => s1.haltQueue q 0x08

/-- RESUME: a save area of this image and shape (Table 9.4, 0x09). -/
def execResume (q : Nat) (sig : Bool) (tok : BitVec 4) (hdr save : BitVec 48) (s : State) : Host.Outcome State Fault Refusal :=
  onQueues q s fun s =>
    let s1 := s.takeCommand q 2
    match s1.header q hdr.toNat, s1.ctxBytes q save.toNat 4096 with
    | some h, some bs =>
      let v := ofBytes (bs.take 8)
      if headerBad h h.width h.height then s1.haltQueue q 0x05
      else if h.resume = noResume ∨ fld v 0 32 ≠ h.iver ∨ fld v 32 8 ≠ h.width ∨ fld v 40 8 ≠ h.height then s1.haltQueue q 0x09
      else if !s1.mapped q save.toNat ({ Part.none with hdr := h, width := h.width, height := h.height } : Part).saveSize then s1.haltQueue q 0x08
      else
        s1.beginLaunch q { hdr := h, image := s1.imageKey q h, width := h.width, height := h.height,
                           token := if sig then some tok.toNat else none, save := some save.toNat }
    | _, _ => s1.haltQueue q 0x08

/-- Load a placed launch and fix its start tick, once nothing that its tiles issued before is under way (R204). -/
def State.loadLaunch (s : State) (q pid : Nat) : State :=
  let p := s.part pid
  if p.tiles.all s.quaysDrained then
    match s.image p.image with
    | none => s
    | some im =>
      let s1 := match p.resumeSave with
        | none => s.loadPart pid im p.hdr.start 0
        | some save => s.loadSaved pid im p.queue save
      if p.hdr.gcount = 0 then s1.startAlone pid else s1.startGroup pid
  else s.post (s.now + 1) rankAfter (.launchPlacement q)

/-- LAUNCH_PLACEMENT: a waiting launch is tried; a placed one is loaded; at its start tick its queue proceeds. -/
def execLaunchPlacement (q : Nat) (s : State) : Host.Outcome State Fault Refusal :=
  onQueues q s fun s =>
    let x := s.queue q
    match x.block, x.launch with
    | .place, some l => s.tryPlace q l
    | .start pid, _ =>
      let p := s.part pid
      if p.status = .waiting ∧ p.t0 = 0 then s.loadLaunch q pid
      else if p.status = .none ∨ (p.status = .running ∧ p.t0 ≤ s.now) then s.unblock q
      else s
    | _, _ => s

/-! ## Round restore (R366) -/

/-- A tile lies in a lost zone. -/
def inZone (lost : Option (Nat × Nat)) (t : Nat) : Bool :=
  match lost with
  | some z => decide (xOf t / 16 = z.1) && decide (yOf t / 16 = z.2)
  | none => false

/-- The lading of a tile at the last round: its own mirror's first half, or its buddy's second half; none where both are lost. -/
def State.mirrored (s : State) (p : Part) (lost : Option (Nat × Nat)) (t : Nat) : Option (List Byte) :=
  let n := p.hdr.lading
  let b := p.buddy t
  if n = 0 then some []
  else if !inZone lost t then some (Memory.bytes (s.tile t).store (s.core (2 * t)).mirror n)
  else if !inZone lost b then some (Memory.bytes (s.tile b).store ((s.core (2 * b)).mirror + n) n)
  else none

/-- The ladings of every tile of a partition, where no tile has lost both copies. -/
def State.ladings (s : State) (p : Part) (lost : Option (Nat × Nat)) : Option (List (Nat × List Byte)) :=
  p.tiles.foldr (fun t acc => match s.mirrored p lost t, acc with
    | some bs, some r => some ((t, bs) :: r)
    | _, _ => none) (some [])

/-- Restore a partition whose tiles have stopped; the mirrors hold the ladings again (log entry 29). -/
def State.restorePart (s : State) (pid : Nat) (im : Image) (lost : Option (Nat × Nat)) : State :=
  let p := s.part pid
  let saved (z : State) : State := match p.resumeSave with
    | some save => (z.loadSaved pid im p.queue save).startAlone pid
    | none => (z.lossRecord p.queue s.modid 3).endPartition pid
  if p.status = .restoring then saved s
  else match p.roundPhase with
    | none => (s.loadPart pid im p.hdr.start 0).startAlone pid
    | some phase =>
      if p.hdr.resume = noResume then s.endPartition pid
      else match s.ladings p lost with
        | none => saved s
        | some ls =>
          ((ls.foldl (fun z e => z.bankWrite e.1 (atAddr (z.core (2 * e.1)).lading e.2))
            (s.loadPart pid im p.hdr.resume phase)).copyLadings pid).startAlone pid

/-- ROUND_RESTORE: every tile stops, and once what its quays and its committed collectives had begun is done the partition is loaded anew
(R284, R366). -/
def execRoundRestore (pid : Nat) (lostZone : Option (Nat × Nat)) (s : State) : Host.Outcome State Fault Refusal :=
  .next (
    let p := s.part pid
    if p.status = .none ∨ p.ending then s
    else
      let s1 := s.stopPart pid
      if s1.workDone pid then
        match s1.image p.image with
        | none => s1
        | some im => s1.restorePart pid im lostZone
      else s1.post (s1.now + 1) rankAfter (.roundRestore pid lostZone))

end Sys2Proof.Machine
end

