-- ==== Sys2Proof/Machine/Host.lean ====
section
/-! DEFINITION. The hosts: the management window, ownership, power-on and bring-up, attestation, and the handle registers (01 R34,
09 Table 9.1, 12 R259-R261, 22 R424-R431). -/

namespace Sys2Proof.Machine

/-! ## Ownership (R426, R427) -/

/-- A step of a host that the module has (R424). -/
def byHost (host : Nat) (s : State) (f : State → State) : Host.Outcome State Fault Refusal :=
  if host < 4 then .next (f s) else .fault .noSuchUnit

/-- The lease is live. -/
def State.live (s : State) : Bool := s.lease.valid && decide (s.now < s.lease.expiry)

/-- The host owns the module: its writes count. -/
def State.owns (s : State) (host : Nat) : Bool := s.live && decide (s.lease.owner = host)

/-- The host's OP had no effect. -/
def State.opFails (s : State) (host : Nat) : State :=
  { s with lease := { s.lease with failed := host :: s.lease.failed.filter fun h => decide (h ≠ host) } }

/-- A host owns the module from now on, with a fresh lease of one second. -/
def State.own (s : State) (host new : Nat) : State :=
  ({ s with lease := { s.lease with
      valid := true, owner := new, expiry := s.now + second, failed := s.lease.failed.filter fun h => decide (h ≠ host) } }).post
    (s.now + second) rankRelease .leaseExpiry

/-- OWNERSHIP_CLAIM: of several on one cycle, the lowest link wins. -/
def execOwnershipClaim (host : Nat) (s : State) : Host.Outcome State Fault Refusal :=
  byHost host s fun s =>
    let claim (z : State) : State := z.own host host
    if !s.live then claim { s with lease := { s.lease with claimed := s.now } }
    else if s.lease.claimed = s.now ∧ host < s.lease.owner then claim (s.opFails s.lease.owner)
    else s.opFails host

/-- OWNERSHIP_RENEW. -/
def execOwnershipRenew (host : Nat) (s : State) : Host.Outcome State Fault Refusal :=
  byHost host s fun s => if s.owns host then s.own host host else s.opFails host

/-- OWNERSHIP_HANDOVER: the successor's number has two bits. -/
def execOwnershipHandover (host succ : Nat) (s : State) : Host.Outcome State Fault Refusal :=
  byHost host s fun s =>
    if s.owns host then ({ s with lease := { s.lease with succ := succ % 4 } }).own host (succ % 4) else s.opFails host

/-- OWNERSHIP_RELEASE. -/
def execOwnershipRelease (host : Nat) (s : State) : Host.Outcome State Fault Refusal :=
  byHost host s fun s =>
    if s.owns host then
      { s with lease := { s.lease with valid := false, failed := s.lease.failed.filter fun h => decide (h ≠ host) } }
    else s.opFails host

/-- LEASE_EXPIRY. -/
def execLeaseExpiry (s : State) : Host.Outcome State Fault Refusal :=
  .next (if s.lease.expiry ≤ s.now then { s with lease := { s.lease with valid := false } } else s)

/-! ## The registers (Tables 9.1, 12.5 and 22.1) -/

/-- The places of HBASE, HLEN and HCMD of a context. -/
def handleReg (ctx i : Nat) : Nat := 4 * ctx + i

/-- The bits of a register of Table 22.1 that a write stores; none for a register with behaviour of its own, or no register. -/
def mgmtBits (off : Nat) : Option Nat :=
  match off with
  | 0x18 | 0x28 | 0x30 => some (2 ^ 64 - 1)
  | 0x20 => some (2 ^ 32 - 1)
  | 0x38 => some (2 ^ 63 + (2 ^ 48 - 1))
  | _ => none

/-- A write of a queue's register (Table 9.1). The low 12 bits of CQBASE are kept as they are written (DESIGN CHOICE, log entry 53). -/
def Queue.register (x : Queue) (off : Nat) (v : Nat) : Queue :=
  match off with
  | 0x00 => { x with host := decide (fld v 63 1 = 1), base := fld v 0 48 }
  | 0x08 => { x with log2 := fld v 0 5 }
  | 0x38 => { x with evhead := fld v 0 7 }
  | _ => x

/-- Firmware will apply the job map that JOBMAP names. -/
def State.jobMapDue (s : State) : State :=
  (s.post (s.now + 1 + Config.hartDelay s.free) rankAfter (.registerWrite 4 0x38 0)).draw

/-- REGISTER_WRITE: a register without behaviour of its own takes the owner's value (R191, R260, R426). An OP of OWN that is none of the
four has no effect, and sets FAIL. The owner's write of JOBMAP has firmware apply the map after a free time; `host` 4 is that step. -/
def execRegisterWrite (host off : Nat) (value : Word) (s : State) : Host.Outcome State Fault Refusal :=
  if host = 4 ∧ off = 0x38 then .next (if s.boot = 5 then s.applyJobMap else s)
  else byHost host s fun s =>
    let v := value.toNat
    if off = 8 then (if 1 ≤ fld v 40 3 ∧ fld v 40 3 ≤ 4 then s else s.opFails host)
    else if !s.owns host then s
    else if off = 0 then { s with modid := fld v 0 18 }
    else if off < 0x1000 then
      match mgmtBits off with
      | some m =>
        let s1 := { s with mgmt := Table.set (0 : Word) s.mgmt off (value &&& BitVec.ofNat 64 m) }
        if off = 0x38 ∧ s.boot = 5 then s1.jobMapDue else s1
      | none => s
    else if off < 0x1400 then s.onQueue ((off - 0x1000) / 0x40) fun x => x.register (off % 0x40) v
    else if 0x2000 ≤ off ∧ off < 0x2400 then
      let ctx := (off - 0x2000) / 0x40
      match off % 0x40 with
      | 0x00 => { s with handleRegs := Table.set (0 : Word) s.handleRegs (handleReg ctx 0) (value &&& 0xFFFFFFFFFFC1) }
      | 0x08 => { s with handleRegs := Table.set (0 : Word) s.handleRegs (handleReg ctx 1) (value &&& 0xFFFFFFFF) }
      | _ => s
    else s

/-- A step of the owner on a queue; a write from another host is ignored (R191). -/
def byOwner (host q : Nat) (s : State) (f : State → State) : Host.Outcome State Fault Refusal :=
  if host < 4 ∧ q < 16 then .next (if s.owns host then f s else s) else .fault .noSuchUnit

/-- CQTAIL_WRITE. -/
def execCqtailWrite (host q : Nat) (value : Word) (s : State) : Host.Outcome State Fault Refusal :=
  byOwner host q s fun s => (s.onQueue q fun x => { x with tail := fld value.toNat 0 21 }).idleFrom q

/-- CQCTL_WRITE: EN from 0 to 1 clears a halt, and a CQSIZE out of range halts the queue. -/
def execCqctlWrite (host q : Nat) (value : Word) (s : State) : Host.Outcome State Fault Refusal :=
  byOwner host q s fun s =>
    let v := value.toNat
    let rises := !(s.queue q).en && decide (fld v 0 1 = 1)
    let s1 := s.onQueue q fun x => { x with
      waitmask := BitVec.ofNat 16 (fld v 16 16), priv := decide (fld v 8 1 = 1), prio := fld v 4 3, en := decide (fld v 0 1 = 1) }
    if !rises then s1
    else
      let s2 := s1.onQueue q fun x => { x with halt := false, err := 0, at_ := x.head }
      if (s2.queue q).log2 < 9 ∨ 20 < (s2.queue q).log2 then s2.haltQueue q 0x07 else s2.idleFrom q

/-- EVOVF_CLEAR. -/
def execEvovfClear (host q : Nat) (s : State) : Host.Outcome State Fault Refusal :=
  byOwner host q s fun s => s.onQueue q fun x => { x with evovf := false }

/-- CQEVT_WRITE: the event ring is empty again. The low 12 bits of CQEVT are kept as they are written (DESIGN CHOICE, log entry 53). -/
def execCqevtWrite (host q : Nat) (value : Word) (s : State) : Host.Outcome State Fault Refusal :=
  byOwner host q s fun s => s.onQueue q fun x => { x with evt := fld value.toNat 0 48, evhead := 0, evtail := 0 }

/-! ## Handles (R259-R261) -/

/-- The result of a request: its STATUS, and the handle that it opened or freed. HCMD reads as BUSY until it is posted, after a free time
(log entry 37). -/
def State.postHandle (s : State) (ctx status handle : Nat) : State :=
  { s.draw with
    handleRegs := Table.set (0 : Word) s.handleRegs (handleReg ctx 2) (BitVec.ofNat 64 (status * 2 ^ 60 + handle % 2 ^ 24)),
    handleBusy := Table.set 0 s.handleBusy ctx (s.now + 1 + Config.hartDelay s.free) }

/-- HCMD as the host reads it (Table 12.5). -/
def State.hcmd (s : State) (ctx : Nat) : Word :=
  Table.get (0 : Word) s.handleRegs (handleReg ctx 2) ||| (if s.now < Table.get 0 s.handleBusy ctx then BitVec.ofNat 64 (2 ^ 63) else 0)

def State.handleWord (s : State) (ctx i : Nat) : Nat := (Table.get (0 : Word) s.handleRegs (handleReg ctx i)).toNat

/-- HANDLE_OPEN, with the registers' BASE, LEN and RO. -/
def execHandleOpen (host ctx slot : Nat) (s : State) : Host.Outcome State Fault Refusal :=
  byOwner host ctx s fun s =>
    let old := s.handleWord ctx 2 % 2 ^ 24
    let b := s.handleWord ctx 0
    let base := fld b 6 42 * 64
    let len := s.handleWord ctx 1
    let x := s.handle ctx slot
    if 1024 ≤ slot then s.postHandle ctx 3 old
    else if x.state ≠ .free then s.postHandle ctx 1 old
    else if len = 0 ∨ 2 ^ 48 < base + 64 * len then s.postHandle ctx 4 old
    else
      (s.setHandle ctx slot { x with base := base, len := len, ro := decide (fld b 0 1 = 1), state := .opened }).postHandle ctx 0
        (slot * 256 + x.gen)

/-- HANDLE_FREE. -/
def execHandleFree (host ctx handle : Nat) (s : State) : Host.Outcome State Fault Refusal :=
  byOwner host ctx s fun s =>
    let old := s.handleWord ctx 2 % 2 ^ 24
    let slot := handle / 256
    let x := s.handle ctx slot
    if 1024 ≤ slot then s.postHandle ctx 3 old
    else if x.state ≠ .opened ∨ x.gen ≠ handle % 256 then s.postHandle ctx 2 old
    else
      let s1 := (s.setHandle ctx slot { x with gen := (x.gen + 1) % 256, state := .freeing }).postHandle ctx 0 handle
      if x.count = 0 then s1.post (s.now + 1) rankQuay (.handleSlotFreed ctx slot) else s1

/-! ## Power-on and bring-up (R34, R428-R430) -/

/-- POWER_ON: the machine of reset; what belongs to the hosts stays. -/
def execPowerOn (s : State) : Host.Outcome State Fault Refusal :=
  .next { State.reset with free := s.free, hostMem := s.hostMem, images := s.images, jobMaps := s.jobMaps }

def State.mgmtReg (s : State) (off : Nat) : Nat := (Table.get (0 : Word) s.mgmt off).toNat

/-- The firmware image that the ROM reads. -/
def State.firmwareImage (s : State) : List Byte := Memory.bytes s.hostMem (s.bus (s.mgmtReg 0x18)) (s.mgmtReg 0x20)

/-- Stage 2: the identity, from the helper data; a module given none enrols and writes fresh helper data (R430). -/
def State.deriveIdentity (s : State) : State :=
  let a := s.bus (s.mgmtReg 0x30)
  let given := Memory.nat s.hostMem a 4096
  if s.mgmtReg 0x30 = 0 ∨ given = 0 then
    let fresh := Config.helperData s.free % 2 ^ 32768
    { s.draw with identity := Config.puf fresh, hostMem := if s.mgmtReg 0x30 = 0 then s.hostMem else Memory.put s.hostMem a fresh 4096 }
  else { s with identity := Config.puf given }

/-- Stage 3 leaves every byte of tile SRAM and of the second tier zero (R429). -/
def State.clearMemories (s : State) : State :=
  let s1 := { s with tier := [], tierPoison := [], pages := [], tokens := [], handles := [], tlbs := [], rowSpares := [], cardSpares := [], rowDraw := s.free }.draw
  s1.tiles.foldl (fun z e => z.setTile e.1 { Tile.idle with ecc := e.2.ecc, errors := e.2.errors }) s1

/-- The dead sheaf columns of a sheaf row. -/
def deadCols (dead : List Nat) (field srow : Nat) : List Nat :=
  ((dead.filter fun t => decide (fieldOf t = field) && decide (sheafRow t = srow)).map sheafCol).eraseDups

/-- The field rows of a column that no zone can use. -/
def badRows (dead deadFields : List Nat) (fcol : Nat) : List Nat :=
  (List.range 6).filter fun r =>
    deadFields.contains (6 * fcol + r) || (List.range 8).any fun j => decide (2 ≤ (deadCols dead (6 * fcol + r) j).length)

/-- Stage 4: the maps (R165, R428); none where a column cannot serve its five zones. Without a bad field a column's spare is field
row 5 (log entry 30). -/
def State.formMap (s : State) (dead deadFields : List Nat) : Option State :=
  let bad (c : Nat) : List Nat := badRows dead deadFields c
  if (List.range 8).any fun c => decide (2 ≤ (bad c).length) then none
  else
    let spareRow := (List.range 8).foldl (fun t c => Table.set 5 t c ((bad c).headD 5)) []
    let deadMask := (List.range 48).foldl (fun t f => (List.range 8).foldl (fun u j =>
      match deadCols dead f j with
      | [d] => Table.set 0 u (f * 8 + j) (2 ^ d)
      | _ => u) t) []
    some { s with
      spareRow := spareRow, deadMask := deadMask, deadFields := (List.range 8).flatMap fun c => (bad c).map (6 * c + ·), shifts := [], zones := [], lateDead := [] }

/-- Host memory from an address on the owner's link, by distance. -/
def State.hostFrom (s : State) (a : Nat) : Memory :=
  (s.hostMem.filter fun e => decide (s.bus a ≤ e.1) && decide (e.1 < s.bus (2 ^ 64))).map fun e => (e.1 - s.bus a, e.2)

/-- Stage 4 with the history, which the bytes at HIST and the identity that signed them give, and then the firmware runs, TICK starts at 0
and a job map that stands in JOBMAP is due (R429). -/
def State.finishBringUp (s : State) (failed failedFields : List Nat) : State :=
  let h := if s.mgmtReg 0x28 = 0 then none else Config.history (s.hostFrom (s.mgmtReg 0x28)) s.identity
  let s1 := if s.mgmtReg 0x38 = 0 then s.draw else s.draw.jobMapDue
  let (dead, fields, mapver) := match h with
    | some (t, f, v) => (failed ++ t, failedFields ++ f, (v + 1) % 2 ^ 32)
    | none => (failed, failedFields, 0)
  match s1.formMap dead fields with
  | none => { s1 with boot := 0x8002, nohist := h.isNone }
  | some z =>
    { z with boot := 5, nohist := h.isNone, mapver := mapver, tickOn := true, tickOff := -(s.now : Int), adj := 0, adjAt := s.now,
             tadj := false, topver := 0, lost := false }

/-- The cycles of one of the four stages: a free time, so that all of them end within 12 s (R428). -/
def stageTime (n : Nat) : Nat := Config.copyDelay n % (3 * second)

/-- The stage under way ends, and the next one begins after a free time. -/
def State.bringUpStage (s : State) (failed failedFields : List Nat) : State :=
  let next (z : State) (k : Nat) : State :=
    (({ z with boot := k }).post (s.now + stageTime z.free) rankAfter (.bringUp 4 failed failedFields)).draw
  match s.boot with
  | 1 =>
    if Config.firmwareValid s.firmwareImage then next { s with firmware := Config.shake256 s.firmwareImage } 2
    else { s with boot := 0x8001 }
  | 2 => next s.deriveIdentity 3
  | 3 => next s.clearMemories 4
  | 4 => s.finishBringUp failed failedFields
  | _ => s

/-- BRING_UP: the owner's write of 1 to BOOT.GO begins the stages, unless one runs; `host` 4 is the end of a stage. `failed` and
`failedFields` are the tiles and fields that fail the self-test. -/
def execBringUp (host : Nat) (failed failedFields : List Nat) (s : State) : Host.Outcome State Fault Refusal :=
  if host = 4 then .next (s.bringUpStage failed failedFields)
  else byHost host s fun s =>
    if s.owns host ∧ (s.boot = 0 ∨ 0x8001 ≤ s.boot) then
      (({ s with boot := 1, nohist := false }).post (s.now + stageTime s.free) rankAfter (.bringUp 4 failed failedFields)).draw
    else s

/-! ## Attestation (R431) -/

/-- ATTEST: the response follows the nonce; MODID is given as 8 bytes (log entry 30). Before a stage has given the firmware's digest or the
identity, the values of State stand for them (log entry 34). -/
def execAttest (host addr : Nat) (s : State) : Host.Outcome State Fault Refusal :=
  byHost host s fun s =>
    if !s.owns host then s
    else
      let a := s.bus (addr % 2 ^ 48)
      let nonce := Memory.bytes s.hostMem a 64
      let defects := Config.shake256 (Config.defectBytes s.deadFields s.deadMask)
      let values := toBytes s.firmware.toNat 64 ++ toBytes defects.toNat 64 ++ toBytes s.modid 8
      let digest := Config.shake256 (nonce ++ values)
      let response := Config.publicKey s.identity ++ values ++ Config.falcon s.identity digest
      { s with
        mgmt := Table.set (0 : Word) s.mgmt 0x40 (BitVec.ofNat 64 (addr % 2 ^ 48)),
        hostMem := Memory.writeAll s.hostMem (atAddr (a + 64) response) }

/-! ## Reading the window (R424, R426) -/

/-- A queue's registers as a host reads them. -/
def Queue.read (x : Queue) (off : Nat) : Nat :=
  match off with
  | 0x00 => bitOf x.host * 2 ^ 63 + x.base
  | 0x08 => x.log2
  | 0x10 => x.tail
  | 0x18 => x.head
  | 0x20 => x.waitmask.toNat * 2 ^ 16 + bitOf x.priv * 2 ^ 8 + x.prio * 2 ^ 4 + bitOf x.en
  | 0x28 => x.word * 2 ^ 32 + x.err * 2 ^ 8 + bitOf x.evovf * 2 + bitOf x.halt
  | 0x30 => x.evt
  | 0x38 => x.evtail * 2 ^ 16 + x.evhead
  | _ => 0

/-- What host `host` reads at an offset of the window. -/
def State.hostRead (s : State) (host off : Nat) : Nat :=
  let left := if s.live then (s.lease.expiry - s.now + 1199) / 1200 else 0
  if off = 0 then s.modid
  else if off = 8 then
    bitOf s.live * 2 ^ 63 + s.lease.owner * 2 ^ 56 + bitOf (s.lease.failed.contains host) * 2 ^ 36 + left
  else if off = 0x10 then s.boot * 2 ^ 48 + bitOf s.nohist * 2 ^ 47
  else if off < 0x1000 then s.mgmtReg off
  else if off < 0x1400 then (s.queue ((off - 0x1000) / 0x40)).read (off % 0x40)
  else if 0x2000 ≤ off ∧ off < 0x2400 ∧ off % 0x40 < 0x18 ∧ off % 8 = 0 then
    let ctx := (off - 0x2000) / 0x40
    if off % 0x40 = 0x10 then (s.hcmd ctx).toNat else s.handleWord ctx (off % 0x40 / 8)
  else 0

end Sys2Proof.Machine
end

