-- ==== Sys2Proof/Machine/Run.lean ====
section
/-! DEFINITION. What one step runs: a slot of the bundle that is issuing, a command that is ready, or the next step of the
agenda, one call of a meaning each. -/

namespace Sys2Proof.Machine

/-- Run a command of queue `q`. -/
def runCommand (q : Nat) (c : Command) (s : State) : Host.Outcome State Fault Refusal :=
  match c with
  | .launch sig tok hdr => execLaunch q sig tok hdr s
  | .launchi sig tok hdr size => execLaunchi q sig tok hdr size s
  | .loopc count => execLoopc q count s
  | .endc => execEndc q s
  | .ifmem cond n addr value => execIfmem q cond n addr value s
  | .waittok tok value => execWaittok q tok value s
  | .sigtok tok addend => execSigtok q tok addend s
  | .copyht sig tok dir host dev len => execCopyht q sig tok dir host dev len s
  | .mapPages va entry count => execMapPages q va entry count s
  | .inval va count => execInval q va count s
  | .manifest stored result => execManifest q stored result s
  | .preempt pid save => execPreempt q pid save s
  | .resume sig tok hdr save => execResume q sig tok hdr save s
  | .retire tile => execRetire q tile s
  | .selftest scope tile => execSelftest q scope tile s

/-- Run a step of the agenda; `issue` is what a bundle's issue does. -/
def runEvent (issue : Nat → Nat → Option Follow → State → Host.Outcome State Fault Refusal) (e : Event) (s : State) : Host.Outcome State Fault Refusal :=
  match e with
  | .waittokRelease q => execWaittokRelease q s
  | .invalDrainEnd q => execInvalDrainEnd q s
  | .preemptSave pid => execPreemptSave pid s
  | .selftestComplete q scope tile fail => execSelftestComplete q scope tile fail s
  | .powerOn => execPowerOn s
  | .bringUp host failed failedFields => execBringUp host failed failedFields s
  | .attest host addr => execAttest host addr s
  | .ownershipClaim host => execOwnershipClaim host s
  | .ownershipRenew host => execOwnershipRenew host s
  | .ownershipHandover host succ => execOwnershipHandover host succ s
  | .ownershipRelease host => execOwnershipRelease host s
  | .leaseExpiry => execLeaseExpiry s
  | .registerWrite host off value => execRegisterWrite host off value s
  | .cqtailWrite host q value => execCqtailWrite host q value s
  | .cqctlWrite host q value => execCqctlWrite host q value s
  | .evovfClear host q => execEvovfClear host q s
  | .cqevtWrite host q value => execCqevtWrite host q value s
  | .handleOpen host ctx slot => execHandleOpen host ctx slot s
  | .handleFree host ctx handle => execHandleFree host ctx handle s
  | .handleSlotFreed ctx slot => execHandleSlotFreed ctx slot s
  | .launchPlacement q => execLaunchPlacement q s
  | .startEntry core => execStartEntry core s
  | .groupT0Agreement gtag ticks => execGroupT0Agreement gtag ticks s
  | .groupColaunchTimeout gtag => execGroupColaunchTimeout gtag s
  | .loopcIdleTimeout q => execLoopcIdleTimeout q s
  | .stragglerEvent pid epoch => execStragglerEvent pid epoch s
  | .bundleIssue core gen follow => issue core gen follow s
  | .slipTimeout core gen => execSlipTimeout core gen s
  | .handlerEntry core gen => execHandlerEntry core gen s
  | .resultLanding core => execResultLanding core s
  | .storePerform core seg bytes => execStorePerform core seg bytes s
  | .delayedArrival core gen => execDelayedArrival core gen s
  | .endArrival core due => execEndArrival core due s
  | .lockRelease pid stage core => execLockRelease pid stage core s
  | .waitBoundExceeded core gen slot => execWaitBoundExceeded core gen slot s
  | .phaserRelease pid ph core => execPhaserRelease pid ph core s
  | .flitLinkEntry f => execFlitLinkEntry f s
  | .flitWrite f => execFlitWrite f s
  | .fragmentAck tile entry n phase => execFragmentAck tile entry n phase s
  | .treeMerge tile entry k input => execTreeMerge tile entry k input s
  | .treeResultWrite f => execTreeResultWrite f s
  | .streamBeat tile eng run beat what => execStreamBeat tile eng run beat what s
  | .windowBeatEntry tile eng run beat => execWindowBeatEntry tile eng run beat s
  | .windowOutputWrite tile eng run beat value => execWindowOutputWrite tile eng run beat value s
  | .nestStart tile nest => execNestStart tile nest s
  | .arrayStep tile nest step ops => execArrayStep tile nest step ops s
  | .mclrPerform tile acc ticket => execMclrPerform tile acc ticket s
  | .bankSwap tile ticket => execBankSwap tile ticket s
  | .mredMerge sheaf row rows => execMredMerge sheaf row rows s
  | .slotDrainEnd tile slot => execSlotDrainEnd tile slot s
  | .quayUnit tile q serial unit data => execQuayUnit tile q serial unit data s
  | .quayComplete tile q serial => execQuayComplete tile q serial s
  | .collectiveCommit cid stage => execCollectiveCommit cid stage s
  | .collectiveAbort cid reason => execCollectiveAbort cid reason s
  | .signatureMismatch core addr issued => execSignatureMismatch core addr issued s
  | .rerunRestart pid => execRerunRestart pid s
  | .segmentCommit core seg => execSegmentCommit core seg s
  | .roundCopy pid => execRoundCopy pid s
  | .roundRestore pid lostZone => execRoundRestore pid lostZone s
  | .sheafShiftStep field srow step => execSheafShiftStep field srow step s
  | .shiftCopyEnd field srow step => execShiftCopyEnd field srow step s
  | .zoneLoss fcol frow => execZoneLoss fcol frow s
  | .plannedZoneRetirement fcol frow => execPlannedZoneRetirement fcol frow s
  | .zoneMove fcol zrow => execZoneMove fcol zrow s
  | .zoneCopyEnd fcol zrow => execZoneCopyEnd fcol zrow s
  | .periodDeviationAlarm fcol frow => execPeriodDeviationAlarm fcol frow s
  | .dutyCycleAlarm fcol frow => execDutyCycleAlarm fcol frow s
  | .regulatorAlarm fcol frow => execRegulatorAlarm fcol frow s
  | .junctionTemperatureAlarm fcol frow => execJunctionTemperatureAlarm fcol frow s
  | .coolantFlowLoss => execCoolantFlowLoss s
  | .opticalFlitDeparture tile msg k => execOpticalFlitDeparture tile msg k s
  | .opticalFlitWrite f => execOpticalFlitWrite f s
  | .opticalAck tile msg => execOpticalAck tile msg s
  | .demandInterval depths => execDemandInterval depths s
  | .laneRetraining lane => execLaneRetraining lane s
  | .pause port length => execPause port length s
  | .pauseEnd port => execPauseEnd port s
  | .portLost port => execPortLost port s
  | .heartbeatLoss modid => execHeartbeatLoss modid s
  | .copyhtCompletion q => execCopyhtCompletion q s
  | .cardSpareMove card delay => execCardSpareMove card delay s
  | .driftMeasurement drift => execDriftMeasurement drift s

/-- The next slot of the bundle that is issuing runs; after the last one the bundle ends (R24). -/
def State.stepLatch (s : State) : Host.Outcome State Fault Refusal :=
  match s.latch.todo with
  | [] => .next s.finishBundle
  | (slot, word) :: rest =>
    let s1 := { s with latch := { s.latch with slot := slot, word := word, todo := rest } }
    match decodeSlot slot word with
    | .ok op => runBody op.body s1
    | .error _ => .next s1

/-- The next step of the agenda at its cycle; with nothing due, the cycle ends. -/
def State.stepAgenda (issue : Nat → Nat → Option Follow → State → Host.Outcome State Fault Refusal) (s : State) :
    Host.Outcome State Fault Refusal :=
  match s.agenda with
  | [] => .next { s with now := s.now + 1 }
  | e :: r => runEvent issue e.ev { s with now := max s.now e.at_, agenda := r }

/-- Something of the agenda comes before the command processor serves its next command. -/
def State.agendaFirst (s : State) : Bool :=
  match s.agenda with
  | [] => false
  | e :: _ => decide (e.at_ ≤ s.hartAt) && decide (s.now < s.hartAt)

/-- One step of the machine: the bundle that is issuing goes on; else the command processor serves a queue that is ready (R192);
else the agenda goes on. -/
def stepWith (issue : Nat → Nat → Option Follow → State → Host.Outcome State Fault Refusal) (s : State) :
    Host.Outcome State Fault Refusal :=
  if s.latch.active then s.stepLatch
  else match s.nextQueue with
    | none => s.stepAgenda issue
    | some q =>
      if s.agendaFirst then s.stepAgenda issue
      else match ({ s with now := max s.now s.hartAt } : State).serve q with
        | .done t => .next t
        | .run c t => runCommand q c t

end Sys2Proof.Machine
end

