-- ==== Sys2Proof/Machine/Gang.lean ====
section
/-! DEFINITION. The issue of a bundle, in a core on its own and in a gang: a lead issues a bundle when no member needs to wait for
it, and a trap of one member is taken by all (08 R168, R169, 18 R351, R352). What a member will need POS cycles on is read from a run
of the machine as it stands (log entry 5). -/

namespace Sys2Proof.Machine

/-- What a core makes of its next bundle: it issues; it holds on; it slips or waits for a register; it traps, at once (a wait's bound or
a missed promise: rank 0), at the bundle's cycle (a cause that no slip delays: rank 1) or as it issues (rank 2); or its lead's code
traps for every member (R43, R169). -/
inductive Need where
  | go | hold
  | late (slips : Bool)
  | trap (rank : Nat) (t : TrapInfo)
  | code (t : TrapInfo)
  deriving DecidableEq, Repr

/-- A cause that is taken whether or not the bundle slips: an imprecise one, or one of the classes 2 to 4 (R21). -/
def earlyCause (t : TrapInfo) : Bool := t.imp || decide (t.cause ≤ 3)

def Verdict.need : Verdict → Need
  | .go => .go
  | .wait => .late false
  | .slip => .late true
  | .trap t => .trap (if earlyCause t then 1 else 2) t

def Need.isLate : Need → Bool
  | .late _ => true
  | _ => false

/-- A trap of at most a rank. -/
def Need.info (rank : Nat) : Need → Option TrapInfo
  | .trap r t => if r ≤ rank then some t else none
  | .code t => if 1 ≤ rank then some t else none
  | _ => none

/-- A trap in place of the bundle that a core's waits hold: an imprecise cause that is due precedes the wait's own (R349). -/
def State.waitTrap (s : State) (c : Nat) (t : TrapInfo) : Need := .trap 0 (((s.core c).imprecise s.now).getD t)

/-- A pending wait, as it stands now: none once the form's wait is over. The bound of one on which arrivals bear comes after those of
its cycle (R181). -/
def State.waitNeed (s : State) (c : Nat) (w : Wait) : Option Need :=
  match s.pollWait c w with
  | .pending | .more _ => some (if w.late s.now ∧ (!w.evented ∨ s.cycleOver) then s.waitTrap c (s.waitInfo c w) else .hold)
  | .trap t => some (s.waitTrap c t)
  | .done _ n => if n = 0 then none else some .hold

/-- What a core's pending waits make of its next bundle: the first trap among them, or a hold. -/
def State.waitsNeed (s : State) (c : Nat) : Option Need :=
  let ns := (s.core c).waits.filterMap (s.waitNeed c)
  match ns.find? fun n => (n.info 0).isSome with
  | some n => some n
  | none => ns.head?

/-- What a lead needs for its next bundle now. -/
def State.leadNeed (s : State) (c : Nat) : Need :=
  let x := s.core c
  match x.dueCause s.now with
  | some t => .trap 1 t
  | none =>
    match s.fetch c with
    | .bad t => .code t
    | .bits b _ => (s.verdict c x.pc b none none).need

/-- What a member needs for the bundle of its lead now, or beside its lead's code trap. -/
def State.memberNeed (s : State) (m : Nat) (f : Follow) : Need :=
  let x := s.core m
  let bits := match f with
    | .run addr _ _ _ _ _ => (s.bundleAt (s.leadOf m) addr).getD 0
    | .trap _ _ _ | .bound => 0
  let base := x.due + (if x.served then 0 else (decodeHeader (fld bits 0 64)).wait.toNat)
  match s.waitsNeed m with
  | some n => n
  | none =>
    if s.now < base ∨ s.moving m then .hold
    else match x.dueCause s.now, f with
      | some t, _ => .trap 1 t
      | none, .trap _ _ _ | none, .bound => .go
      | none, .run addr kg _ _ _ _ => (s.verdict m addr bits (some f) (some kg)).need

/-- What a member of a gang needs for a bundle, and the cause that stands before the bundle's code, which it takes in whatever trap
the gang takes there (R349, R352). -/
structure MemberNeed where
  core : Nat
  need : Need
  due  : Option TrapInfo
  deriving DecidableEq, Repr

/-- The cause that a member has in a trap of a rank. -/
def MemberNeed.info (n : MemberNeed) (rank : Nat) : Option TrapInfo := (n.need.info rank).orElse fun _ => n.due

/-- The steps that a look ahead may take: more than 16 cycles of the module hold (log entry 5). -/
def lookFuel : Nat := 2 ^ 64

/-- What each of the members `ms` needs for the bundle that its lead issues at cycle `t0`, as a run from a state by `stp` shows it. -/
def State.look (stp : State → Host.Outcome State Fault Refusal) (ms : List Nat) (t0 : Nat) :
    Nat → State → List MemberNeed → List MemberNeed
  | 0, _, found => found
  | n + 1, s, found =>
    if (ms.all fun m => found.any fun e => decide (e.core = m)) || (s.agenda.head?.map fun e => decide (t0 + 15 < e.at_)).getD false then found
    else
      let here : List MemberNeed := if s.latch.active then [] else match s.agenda with
        | e :: _ =>
          match e.ev with
          | .bundleIssue m _ (some f) =>
            if ms.contains m && decide (e.at_ = t0 + (s.core m).pos) && !(found.any fun e => decide (e.core = m)) then
              let z : State := { s with now := max s.now e.at_ }
              [{ core := m, need := z.memberNeed m f, due := (z.core m).dueCause z.now }] else []
          | _ => []
        | [] => []
      match stp s with
      | .next t => State.look stp ms t0 n t (found ++ here)
      | _ => found ++ here

/-- A lead tells its members of the bundle, or of its code's trap, without issuing it; at the end of a cycle, when only the bounds of
waits are left, they look at the end of theirs. -/
def State.announce (s : State) (c : Nat) (lead : Need) : State :=
  let x := s.core c
  s.tellMembers c (if (lead = .hold ∨ (lead.info 0).isSome) ∧ s.cycleOver then rankBound else rankIssue) fun _ => match lead with
    | .code t => .trap x.pc t t.cause
    | _ => .run x.pc (match s.bundleAt c x.pc with
        | some b => s.kGuardOf c b
        | none => false) x.regs.loops .none 0 none

/-- The needs of a lead and its members, the lowest POS first. -/
def State.gangNeeds (stp : State → Host.Outcome State Fault Refusal) (s : State) (c gen : Nat) (lead : Need) : List MemberNeed :=
  let ms := s.members c
  let ahead := if lead = .go then s.issuePlain c gen none else s.announce c lead
  let found := ahead.look stp ms s.now lookFuel []
  { core := c, need := lead, due := (s.core c).dueCause s.now } ::
    ms.map fun m => (found.find? fun e => decide (e.core = m)).getD { core := m, need := .go, due := none }

/-- The bundle slips, or waits for a member: the whole gang tries again on the next cycle (R168, R21). -/
def State.gangDelay (s : State) (c gen : Nat) (slips : Bool) : State :=
  let s1 := if slips ∧ (s.core c).slip.isNone then
      (c :: s.members c).foldl (fun z m => z.onCore m fun y => { y with slip := some (s.now + y.pos) }) s
    else s
  s1.post (s.now + 1) rankIssue (.bundleIssue c gen none)

/-- A cause of the bundle issued last, which it suppresses (R326, R332). -/
def retakesBundle (t : TrapInfo) (rank : Nat) : Bool := decide (rank = 0) && !t.imp && decide (t.cause ≠ 0x0F)

/-- A trap of the gang (R352): each member that had a cause takes its own, the others are followers of the lowest, and all enter
that cause's handler at their skewed cycles. A trap of the code is every member's own (R169). -/
def State.gangTrap (s : State) (c rank : Nat) (needs : List MemberNeed) : State :=
  match needs.findSome? fun n => n.info rank with
  | none => s
  | some first =>
    let addr := (s.core c).pc
    let code := decide (1 ≤ rank) && needs.any fun n => match n.need with
      | .code _ => true
      | _ => false
    let record (n : MemberNeed) : TrapInfo :=
      let t := (n.info rank).getD (if code then first else { first with cause := 0x80 + first.cause })
      { t with imp := t.imp && !(s.core n.core).hm }
    let back := needs.any fun n => ((n.need.info rank).map fun t => retakesBundle t rank).getD false
    let entry := first.cause + (if back then 0x100 else 0)
    needs.foldl (fun z n =>
      let z1 := z.onCore n.core fun y => { y with forced := if (n.info rank).isSome then none else y.forced }
      if n.core = c then z1.takeGang c addr (record n) entry
      else
        z1.post (s.now + (s.core n.core).pos) rankIssue
          (.bundleIssue n.core (s.core n.core).gen (some (.trap addr (record n) entry)))) (s.drawFar c)

/-- What a gang does with its next bundle, given what its lead needs itself. The bound of a wait traps at once; a hold moves the cycle on
which the bundle is due; the causes that are fixed by then precede every slip, and the others wait for its end (R21, R181). -/
def State.gangIssue (stp : State → Host.Outcome State Fault Refusal) (s : State) (c gen : Nat) (lead : Need) : State :=
  let needs := s.gangNeeds stp c gen lead
  let traps (rank : Nat) : Bool := needs.any fun n => (n.need.info rank).isSome
  if traps 0 then s.gangTrap c 0 needs
  else if lead = .hold then (if (s.core c).waits.isEmpty then s else s.issuePlain c gen none)
  else if needs.any fun n => decide (n.need = .hold) then s.gangDelay c gen false
  else if needs.any fun n => n.need.isLate then
    if traps 1 then s.gangTrap c 1 needs else s.gangDelay c gen (needs.any fun n => decide (n.need = .late true))
  else if traps 2 then s.gangTrap c 2 needs
  else s.issuePlain c gen none

/-- The bound of a wait of a member may come at its part of the lead's present cycle. -/
def State.memberBound (s : State) (c : Nat) : Bool :=
  (s.members c).any fun m => (s.core m).waits.any fun w => w.late (s.now + (s.core m).pos)

/-- The bound of a wait may come in the lead or in a member: where it does, the gang traps (R352). -/
def State.gangBound (stp : State → Host.Outcome State Fault Refusal) (s : State) (c gen : Nat) : State :=
  let needs := s.gangNeeds stp c gen (match s.waitsNeed c with
    | some (.trap r t) => .trap r t
    | _ => .hold)
  if needs.any fun n => (n.need.info 0).isSome then s.gangTrap c 0 needs else s

/-- The issue of a core on its own, of a gang's member as its lead tells it, or of a lead for its gang, which looks ahead by `stp`. -/
def State.issueBy (stp : State → Host.Outcome State Fault Refusal) (s : State) (core gen : Nat) (follow : Option Follow) : State :=
  let x := s.core core
  if x.gen ≠ gen ∨ x.status ≠ .running ∨ x.gsize = 0 ∨ x.pos ≠ 0 then s.issuePlain core gen follow
  else if follow = some .bound then s.gangBound stp core gen
  else if !x.waits.isEmpty then
    match s.waitsNeed core with
    | some (.trap r t) => s.gangIssue stp core gen (.trap r t)
    | _ => if s.memberBound core then s.gangIssue stp core gen .hold else s.issuePlain core gen none
  else if s.now < x.due then (if s.memberBound core then s.gangIssue stp core gen .hold else s)
  else if s.moving core then s
  else s.gangIssue stp core gen (s.leadNeed core)

/-- The issue of a core within the look ahead of the leads `asked`: another gang's lead asks its own members, and one that is asking
issues as it decides it alone. The chain holds each gang once, so it is no longer than the module has gangs. -/
def State.issueIn : Nat → List Nat → Nat → Nat → Option Follow → State → State
  | 0, _, core, gen, follow, s => s.issuePlain core gen follow
  | n + 1, asked, core, gen, follow, s =>
    if asked.contains core then s.issuePlain core gen follow
    else s.issueBy (stepWith fun c g f z => .next (State.issueIn n (core :: asked) c g f z)) core gen follow

/-- More gangs than the module has. -/
def gangFuel : Nat := 2 ^ 14

/-- BUNDLE_ISSUE (R21). -/
def execBundleIssue (core gen : Nat) (follow : Option Follow) (s : State) : Host.Outcome State Fault Refusal :=
  .next (State.issueIn gangFuel [] core gen follow s)

/-! ## Placing an instruction (log entry 6) -/

/-- The latch of a bundle of core 0 of which one slot has still to run. -/
def Latch.lone (slot : Slot) (word : Nat) : Latch := { Latch.none with active := true, todo := [(slot, word)] }

/-- An instruction's word in the slot that runs next: a word that no slot accepts stands in the K slot. -/
def State.placeWord (s : State) (nbits w : Nat) : State :=
  let o := (tableSlot nbits w).getD (.k, w)
  { s with latch := Latch.lone o.1 o.2 }

end Sys2Proof.Machine
end

