-- ==== Sys2Proof/Machine/Dispatch.lean ====
section
/-! DEFINITION. The meaning of every instruction: one arm and one direct call per row of the opcode table. -/

namespace Sys2Proof.Machine

def exec (i : Instr) (s : State) : Host.Outcome State Fault Refusal :=
  match i with
  -- K slot (02 Table 2.9)
  | .add d a b => Sys2Proof.Machine.execAdd d a b s
  | .sub d a b => Sys2Proof.Machine.execSub d a b s
  | .and d a b => Sys2Proof.Machine.execAnd d a b s
  | .or d a b => Sys2Proof.Machine.execOr d a b s
  | .xor d a b => Sys2Proof.Machine.execXor d a b s
  | .andn d a b => Sys2Proof.Machine.execAndn d a b s
  | .shl d a b => Sys2Proof.Machine.execShl d a b s
  | .shr d a b => Sys2Proof.Machine.execShr d a b s
  | .sra d a b => Sys2Proof.Machine.execSra d a b s
  | .min d a b => Sys2Proof.Machine.execMin d a b s
  | .max d a b => Sys2Proof.Machine.execMax d a b s
  | .minn d a b => Sys2Proof.Machine.execMinn d a b s
  | .maxn d a b => Sys2Proof.Machine.execMaxn d a b s
  | .mul d a b => Sys2Proof.Machine.execMul d a b s
  | .mulh d a b => Sys2Proof.Machine.execMulh d a b s
  | .mulhn d a b => Sys2Proof.Machine.execMulhn d a b s
  | .div d a b => Sys2Proof.Machine.execDiv d a b s
  | .divn d a b => Sys2Proof.Machine.execDivn d a b s
  | .rem d a b => Sys2Proof.Machine.execRem d a b s
  | .remn d a b => Sys2Proof.Machine.execRemn d a b s
  | .clz d a => Sys2Proof.Machine.execClz d a s
  | .ctz d a => Sys2Proof.Machine.execCtz d a s
  | .popc d a => Sys2Proof.Machine.execPopc d a s
  | .sel d a b ps => Sys2Proof.Machine.execSel d a b ps s
  | .addi d a imm => Sys2Proof.Machine.execAddi d a imm s
  | .andi d a imm => Sys2Proof.Machine.execAndi d a imm s
  | .ori d a imm => Sys2Proof.Machine.execOri d a imm s
  | .xori d a imm => Sys2Proof.Machine.execXori d a imm s
  | .shli d a imm => Sys2Proof.Machine.execShli d a imm s
  | .shri d a imm => Sys2Proof.Machine.execShri d a imm s
  | .srai d a imm => Sys2Proof.Machine.execSrai d a imm s
  | .movi d imm => Sys2Proof.Machine.execMovi d imm s
  | .muli d a imm => Sys2Proof.Machine.execMuli d a imm s
  | .cmpEq pd a b => Sys2Proof.Machine.execCmpEq pd a b s
  | .cmpNe pd a b => Sys2Proof.Machine.execCmpNe pd a b s
  | .cmpLt pd a b => Sys2Proof.Machine.execCmpLt pd a b s
  | .cmpLe pd a b => Sys2Proof.Machine.execCmpLe pd a b s
  | .cmpLtn pd a b => Sys2Proof.Machine.execCmpLtn pd a b s
  | .cmpLen pd a b => Sys2Proof.Machine.execCmpLen pd a b s
  | .cmpiEq pd a imm => Sys2Proof.Machine.execCmpiEq pd a imm s
  | .cmpiNe pd a imm => Sys2Proof.Machine.execCmpiNe pd a imm s
  | .cmpiLt pd a imm => Sys2Proof.Machine.execCmpiLt pd a imm s
  | .cmpiLe pd a imm => Sys2Proof.Machine.execCmpiLe pd a imm s
  | .cmpiLtn pd a imm => Sys2Proof.Machine.execCmpiLtn pd a imm s
  | .cmpiLen pd a imm => Sys2Proof.Machine.execCmpiLen pd a imm s
  | .pand pd pa pb => Sys2Proof.Machine.execPand pd pa pb s
  | .por pd pa pb => Sys2Proof.Machine.execPor pd pa pb s
  | .pxor pd pa pb => Sys2Proof.Machine.execPxor pd pa pb s
  | .pandn pd pa pb => Sys2Proof.Machine.execPandn pd pa pb s
  | .pset a => Sys2Proof.Machine.execPset a s
  | .pget d => Sys2Proof.Machine.execPget d s
  | .br off => Sys2Proof.Machine.execBr off s
  | .jmp a => Sys2Proof.Machine.execJmp a s
  | .call off => Sys2Proof.Machine.execCall off s
  | .ret a => Sys2Proof.Machine.execRet a s
  | .loop a off => Sys2Proof.Machine.execLoop a off s
  | .loopi off n => Sys2Proof.Machine.execLoopi off n s
  | .lexit off => Sys2Proof.Machine.execLexit off s
  | .lidx d lvl => Sys2Proof.Machine.execLidx d lvl s
  | .rotset imm => Sys2Proof.Machine.execRotset imm s
  | .tick d => Sys2Proof.Machine.execTick d s
  | .scyc d => Sys2Proof.Machine.execScyc d s
  | .phase d => Sys2Proof.Machine.execPhase d s
  | .lkstat d => Sys2Proof.Machine.execLkstat d s
  | .sleept a => Sys2Proof.Machine.execSleept a s
  | .lock round win bound => Sys2Proof.Machine.execLock round win bound s
  | .lockAnd p round win bound => Sys2Proof.Machine.execLockAnd p round win bound s
  | .lockOr p round win bound => Sys2Proof.Machine.execLockOr p round win bound s
  | .endProg bound => Sys2Proof.Machine.execEndProg bound s
  | .csrr d n => Sys2Proof.Machine.execCsrr d n s
  | .csrw d a n imm => Sys2Proof.Machine.execCsrw d a n imm s
  | .csrs d a n imm => Sys2Proof.Machine.execCsrs d a n imm s
  | .csrc d a n imm => Sys2Proof.Machine.execCsrc d a n imm s
  -- M slot (02 Table 2.10)
  | .aadd d a b => Sys2Proof.Machine.execAadd d a b s
  | .asub d a b => Sys2Proof.Machine.execAsub d a b s
  | .aaddi d a imm => Sys2Proof.Machine.execAaddi d a imm s
  | .ashli d a imm => Sys2Proof.Machine.execAshli d a imm s
  | .amuli d a imm => Sys2Proof.Machine.execAmuli d a imm s
  | .amovi d imm => Sys2Proof.Machine.execAmovi d imm s
  | .ldb m => Sys2Proof.Machine.execLdb m s
  | .ldbn m => Sys2Proof.Machine.execLdbn m s
  | .ldh m => Sys2Proof.Machine.execLdh m s
  | .ldhn m => Sys2Proof.Machine.execLdhn m s
  | .ldw m => Sys2Proof.Machine.execLdw m s
  | .ldwn m => Sys2Proof.Machine.execLdwn m s
  | .ldd m => Sys2Proof.Machine.execLdd m s
  | .ldv m view => Sys2Proof.Machine.execLdv m view s
  | .ldvs m view stride => Sys2Proof.Machine.execLdvs m view stride s
  | .ldacc m => Sys2Proof.Machine.execLdacc m s
  | .stb m => Sys2Proof.Machine.execStb m s
  | .sth m => Sys2Proof.Machine.execSth m s
  | .stw m => Sys2Proof.Machine.execStw m s
  | .std m => Sys2Proof.Machine.execStd m s
  | .stv m => Sys2Proof.Machine.execStv m s
  | .stvs m stride => Sys2Proof.Machine.execStvs m stride s
  | .stvm m mask => Sys2Proof.Machine.execStvm m mask s
  | .spill file reg => Sys2Proof.Machine.execSpill file reg s
  | .fill file reg => Sys2Proof.Machine.execFill file reg s
  -- V and W slots (02 Table 2.11)
  | .vadd d a b t sat => Sys2Proof.Machine.execVadd d a b t sat s
  | .vsub d a b t sat => Sys2Proof.Machine.execVsub d a b t sat s
  | .vmul d a b t sat => Sys2Proof.Machine.execVmul d a b t sat s
  | .vmulh d a b t sat => Sys2Proof.Machine.execVmulh d a b t sat s
  | .vmin d a b t sat => Sys2Proof.Machine.execVmin d a b t sat s
  | .vmax d a b t sat => Sys2Proof.Machine.execVmax d a b t sat s
  | .vand d a b t sat => Sys2Proof.Machine.execVand d a b t sat s
  | .vor d a b t sat => Sys2Proof.Machine.execVor d a b t sat s
  | .vxor d a b t sat => Sys2Proof.Machine.execVxor d a b t sat s
  | .vshl d a b t sat => Sys2Proof.Machine.execVshl d a b t sat s
  | .vshr d a b t sat => Sys2Proof.Machine.execVshr d a b t sat s
  | .vsra d a b t sat => Sys2Proof.Machine.execVsra d a b t sat s
  | .vabs d a t sat => Sys2Proof.Machine.execVabs d a t sat s
  | .vcmpEq d a b t => Sys2Proof.Machine.execVcmpEq d a b t s
  | .vcmpNe d a b t => Sys2Proof.Machine.execVcmpNe d a b t s
  | .vcmpLt d a b t => Sys2Proof.Machine.execVcmpLt d a b t s
  | .vcmpLe d a b t => Sys2Proof.Machine.execVcmpLe d a b t s
  | .vcmpGt d a b t => Sys2Proof.Machine.execVcmpGt d a b t s
  | .vcmpGe d a b t => Sys2Proof.Machine.execVcmpGe d a b t s
  | .vcmpUo d a b t => Sys2Proof.Machine.execVcmpUo d a b t s
  | .vcmpOrd d a b t => Sys2Proof.Machine.execVcmpOrd d a b t s
  | .vsel d a b c t => Sys2Proof.Machine.execVsel d a b c t s
  | .vdot4Ss d a b c sat => Sys2Proof.Machine.execVdot4Ss d a b c sat s
  | .vdot4Su d a b c sat => Sys2Proof.Machine.execVdot4Su d a b c sat s
  | .vdot4Us d a b c sat => Sys2Proof.Machine.execVdot4Us d a b c sat s
  | .vdot4Uu d a b c sat => Sys2Proof.Machine.execVdot4Uu d a b c sat s
  | .vaddi d a imm t => Sys2Proof.Machine.execVaddi d a imm t s
  | .vshli d a imm t => Sys2Proof.Machine.execVshli d a imm t s
  | .vshri d a imm t => Sys2Proof.Machine.execVshri d a imm t s
  | .vsrai d a imm t => Sys2Proof.Machine.execVsrai d a imm t s
  | .vmovi d imm t => Sys2Proof.Machine.execVmovi d imm t s
  | .vfadd d a b t rm => Sys2Proof.Machine.execVfadd d a b t rm s
  | .vfsub d a b t rm => Sys2Proof.Machine.execVfsub d a b t rm s
  | .vfmul d a b t rm => Sys2Proof.Machine.execVfmul d a b t rm s
  | .vfma d a b c t rm => Sys2Proof.Machine.execVfma d a b c t rm s
  | .vfms d a b c t rm => Sys2Proof.Machine.execVfms d a b c t rm s
  | .vfnma d a b c t rm => Sys2Proof.Machine.execVfnma d a b c t rm s
  | .vfmin d a b t => Sys2Proof.Machine.execVfmin d a b t s
  | .vfmax d a b t => Sys2Proof.Machine.execVfmax d a b t s
  | .vfcmpEq d a b t => Sys2Proof.Machine.execVfcmpEq d a b t s
  | .vfcmpNe d a b t => Sys2Proof.Machine.execVfcmpNe d a b t s
  | .vfcmpLt d a b t => Sys2Proof.Machine.execVfcmpLt d a b t s
  | .vfcmpLe d a b t => Sys2Proof.Machine.execVfcmpLe d a b t s
  | .vfcmpGt d a b t => Sys2Proof.Machine.execVfcmpGt d a b t s
  | .vfcmpGe d a b t => Sys2Proof.Machine.execVfcmpGe d a b t s
  | .vfcmpUo d a b t => Sys2Proof.Machine.execVfcmpUo d a b t s
  | .vfcmpOrd d a b t => Sys2Proof.Machine.execVfcmpOrd d a b t s
  | .vfsgnCopy d a b t => Sys2Proof.Machine.execVfsgnCopy d a b t s
  | .vfsgnNcopy d a b t => Sys2Proof.Machine.execVfsgnNcopy d a b t s
  | .vfsgnXor d a b t => Sys2Proof.Machine.execVfsgnXor d a b t s
  | .vfsgnAbs d a t => Sys2Proof.Machine.execVfsgnAbs d a t s
  | .vfsgnNeg d a t => Sys2Proof.Machine.execVfsgnNeg d a t s
  | .vfrcp d a t => Sys2Proof.Machine.execVfrcp d a t s
  | .vfrsq d a t => Sys2Proof.Machine.execVfrsq d a t s
  | .vfexp2 d a t => Sys2Proof.Machine.execVfexp2 d a t s
  | .vflog2 d a t => Sys2Proof.Machine.execVflog2 d a t s
  | .vfsqrt d a t rm => Sys2Proof.Machine.execVfsqrt d a t rm s
  | .vfdiv d a b t rm => Sys2Proof.Machine.execVfdiv d a b t rm s
  | .vfactTanh d a t => Sys2Proof.Machine.execVfactTanh d a t s
  | .vfactSigm d a t => Sys2Proof.Machine.execVfactSigm d a t s
  | .vfactGelu d a t => Sys2Proof.Machine.execVfactGelu d a t s
  | .vfactSilu d a t => Sys2Proof.Machine.execVfactSilu d a t s
  | .vfcls d a t => Sys2Proof.Machine.execVfcls d a t s
  | .vcvt d a dfmt sfmt rm sat => Sys2Proof.Machine.execVcvt d a dfmt sfmt rm sat s
  | .vqblkB4 d a b rm => Sys2Proof.Machine.execVqblkB4 d a b rm s
  | .vqblkB10 d a b rm => Sys2Proof.Machine.execVqblkB10 d a b rm s
  | .vdqblkB4Bf24 d a => Sys2Proof.Machine.execVdqblkB4Bf24 d a s
  | .vdqblkB4Lo d a => Sys2Proof.Machine.execVdqblkB4Lo d a s
  | .vdqblkB4Hi d a => Sys2Proof.Machine.execVdqblkB4Hi d a s
  | .vdqblkB10Bf24 d a => Sys2Proof.Machine.execVdqblkB10Bf24 d a s
  | .vdqblkB10Lo d a => Sys2Proof.Machine.execVdqblkB10Lo d a s
  | .vdqblkB10Hi d a => Sys2Proof.Machine.execVdqblkB10Hi d a s
  | .vfrnd d a t rm => Sys2Proof.Machine.execVfrnd d a t rm s
  | .vredAdd d a t => Sys2Proof.Machine.execVredAdd d a t s
  | .vredMax d a t => Sys2Proof.Machine.execVredMax d a t s
  | .vredMin d a t => Sys2Proof.Machine.execVredMin d a t s
  | .vredAnd d a t => Sys2Proof.Machine.execVredAnd d a t s
  | .vredOr d a t => Sys2Proof.Machine.execVredOr d a t s
  | .vredXor d a t => Sys2Proof.Machine.execVredXor d a t s
  | .vfredSum d a t => Sys2Proof.Machine.execVfredSum d a t s
  | .vfredMax d a t => Sys2Proof.Machine.execVfredMax d a t s
  | .vfredMin d a t => Sys2Proof.Machine.execVfredMin d a t s
  | .vperm d a b t => Sys2Proof.Machine.execVperm d a b t s
  | .vbcast d a t lane => Sys2Proof.Machine.execVbcast d a t lane s
  | .vslide d a b t n => Sys2Proof.Machine.execVslide d a b t n s
  | .vzipLo d a b t => Sys2Proof.Machine.execVzipLo d a b t s
  | .vzipHi d a b t => Sys2Proof.Machine.execVzipHi d a b t s
  | .vzipEven d a b t => Sys2Proof.Machine.execVzipEven d a b t s
  | .vzipOdd d a b t => Sys2Proof.Machine.execVzipOdd d a b t s
  | .vrng d t => Sys2Proof.Machine.execVrng d t s
  | .vmov d a => Sys2Proof.Machine.execVmov d a s
  -- X slot (02 Table 2.12)
  | .xmovi d imm => Sys2Proof.Machine.execXmovi d imm s
  | .xaddi d a imm => Sys2Proof.Machine.execXaddi d a imm s
  | .send ch xs bound => Sys2Proof.Machine.execSend ch xs bound s
  | .recv ch xs bound => Sys2Proof.Machine.execRecv ch xs bound s
  | .sendrAddF32 ch xs bound => Sys2Proof.Machine.execSendrAddF32 ch xs bound s
  | .sendrAddBf16 ch xs bound => Sys2Proof.Machine.execSendrAddBf16 ch xs bound s
  | .sendrMaxF32 ch xs bound => Sys2Proof.Machine.execSendrMaxF32 ch xs bound s
  | .sendrMinF32 ch xs bound => Sys2Proof.Machine.execSendrMinF32 ch xs bound s
  | .sendrAddI32 ch xs bound => Sys2Proof.Machine.execSendrAddI32 ch xs bound s
  | .sendrXor ch xs bound => Sys2Proof.Machine.execSendrXor ch xs bound s
  | .recvr ch xs bound => Sys2Proof.Machine.execRecvr ch xs bound s
  | .chst ch xs => Sys2Proof.Machine.execChst ch xs s
  | .pregSw ph => Sys2Proof.Machine.execPregSw ph s
  | .pregSo ph => Sys2Proof.Machine.execPregSo ph s
  | .pregWo ph => Sys2Proof.Machine.execPregWo ph s
  | .pdrop ph => Sys2Proof.Machine.execPdrop ph s
  | .psig ph => Sys2Proof.Machine.execPsig ph s
  | .pwait ph bound => Sys2Proof.Machine.execPwait ph bound s
  | .scfg st field xa => Sys2Proof.Machine.execScfg st field xa s
  | .sbind st file reg out => Sys2Proof.Machine.execSbind st file reg out s
  | .sfree st => Sys2Proof.Machine.execSfree st s
  | .swait st bound => Sys2Proof.Machine.execSwait st bound s
  | .sgo st => Sys2Proof.Machine.execSgo st s
  | .omclaim d => Sys2Proof.Machine.execOmclaim d s
  | .omrel a => Sys2Proof.Machine.execOmrel a s
  | .mstat d => Sys2Proof.Machine.execMstat d s
  | .mcfg level field xa => Sys2Proof.Machine.execMcfg level field xa s
  | .mgo lra lrb bound => Sys2Proof.Machine.execMgo lra lrb bound s
  | .mswap bound => Sys2Proof.Machine.execMswap bound s
  | .mwait bound => Sys2Proof.Machine.execMwait bound s
  | .mred acc bound => Sys2Proof.Machine.execMred acc bound s
  | .mclr acc => Sys2Proof.Machine.execMclr acc s
  | .qget o => Sys2Proof.Machine.execQget o s
  | .qput o => Sys2Proof.Machine.execQput o s
  | .qgath o => Sys2Proof.Machine.execQgath o s
  | .qatomAdd o => Sys2Proof.Machine.execQatomAdd o s
  | .qatomMin o => Sys2Proof.Machine.execQatomMin o s
  | .qatomMax o => Sys2Proof.Machine.execQatomMax o s
  | .qatomMinn o => Sys2Proof.Machine.execQatomMinn o s
  | .qatomMaxn o => Sys2Proof.Machine.execQatomMaxn o s
  | .qatomSwap o => Sys2Proof.Machine.execQatomSwap o s
  | .qatomCas o => Sys2Proof.Machine.execQatomCas o s
  | .qatomAnd o => Sys2Proof.Machine.execQatomAnd o s
  | .qatomOr o => Sys2Proof.Machine.execQatomOr o s
  | .qatomXor o => Sys2Proof.Machine.execQatomXor o s
  | .qmark q => Sys2Proof.Machine.execQmark q s
  | .qtpop q xd tid bound => Sys2Proof.Machine.execQtpop q xd tid bound s
  | .qwait q xd bound => Sys2Proof.Machine.execQwait q xd bound s
  | .coll xa xd => Sys2Proof.Machine.execColl xa xd s
  | .cwait xd bound => Sys2Proof.Machine.execCwait xd bound s
  | .osend och xa bound => Sys2Proof.Machine.execOsend och xa bound s
  | .orecv och xa bound => Sys2Proof.Machine.execOrecv och xa bound s
  | .ogap gap => Sys2Proof.Machine.execOgap gap s
  | .over a => Sys2Proof.Machine.execOver a s
  -- K and M forms without fields, the software traps and ESC, and the forms of every slot (R55, R56)
  | .tadj => Sys2Proof.Machine.execTadj s
  | .tret => Sys2Proof.Machine.execTret s
  | .tretSkip => Sys2Proof.Machine.execTretSkip s
  | .mark => Sys2Proof.Machine.execMark s
  | .trap imm => Sys2Proof.Machine.execTrap imm s
  | .brk imm => Sys2Proof.Machine.execBrk imm s
  | .esc imm => Sys2Proof.Machine.execEsc imm s
  | .xcopy dfile dreg sreg => Sys2Proof.Machine.execXcopy dfile dreg sreg s
  | .xcopyLane dfile dreg sreg lane => Sys2Proof.Machine.execXcopyLane dfile dreg sreg lane s
  | .xcopyBcast dfile dreg sreg => Sys2Proof.Machine.execXcopyBcast dfile dreg sreg s
  | .ext payload => Sys2Proof.Machine.execExt payload s
  -- Commands (09 Table 9.2)
  | .launch q sig tok hdr => Sys2Proof.Machine.execLaunch q sig tok hdr s
  | .launchi q sig tok hdr size => Sys2Proof.Machine.execLaunchi q sig tok hdr size s
  | .loopc q count => Sys2Proof.Machine.execLoopc q count s
  | .endc q => Sys2Proof.Machine.execEndc q s
  | .ifmem q cond n addr value => Sys2Proof.Machine.execIfmem q cond n addr value s
  | .waittok q tok value => Sys2Proof.Machine.execWaittok q tok value s
  | .waittokRelease q => Sys2Proof.Machine.execWaittokRelease q s
  | .sigtok q tok addend => Sys2Proof.Machine.execSigtok q tok addend s
  | .copyht q sig tok dir host dev len => Sys2Proof.Machine.execCopyht q sig tok dir host dev len s
  | .mapPages q va entry count => Sys2Proof.Machine.execMapPages q va entry count s
  | .inval q va count => Sys2Proof.Machine.execInval q va count s
  | .invalDrainEnd q => Sys2Proof.Machine.execInvalDrainEnd q s
  | .manifest q stored result => Sys2Proof.Machine.execManifest q stored result s
  | .preempt q pid save => Sys2Proof.Machine.execPreempt q pid save s
  | .preemptSave pid => Sys2Proof.Machine.execPreemptSave pid s
  | .resume q sig tok hdr save => Sys2Proof.Machine.execResume q sig tok hdr save s
  | .retire q tile => Sys2Proof.Machine.execRetire q tile s
  | .selftest q scope tile => Sys2Proof.Machine.execSelftest q scope tile s
  | .selftestComplete q scope tile fail => Sys2Proof.Machine.execSelftestComplete q scope tile fail s
  -- Power-on, bring-up and ownership (01 R34, 22 R426-R431)
  | .powerOn => Sys2Proof.Machine.execPowerOn s
  | .bringUp host failed failedFields => Sys2Proof.Machine.execBringUp host failed failedFields s
  | .attest host addr => Sys2Proof.Machine.execAttest host addr s
  | .ownershipClaim host => Sys2Proof.Machine.execOwnershipClaim host s
  | .ownershipRenew host => Sys2Proof.Machine.execOwnershipRenew host s
  | .ownershipHandover host succ => Sys2Proof.Machine.execOwnershipHandover host succ s
  | .ownershipRelease host => Sys2Proof.Machine.execOwnershipRelease host s
  | .leaseExpiry => Sys2Proof.Machine.execLeaseExpiry s
  | .registerWrite host off value => Sys2Proof.Machine.execRegisterWrite host off value s
  | .cqtailWrite host q value => Sys2Proof.Machine.execCqtailWrite host q value s
  | .cqctlWrite host q value => Sys2Proof.Machine.execCqctlWrite host q value s
  | .evovfClear host q => Sys2Proof.Machine.execEvovfClear host q s
  | .cqevtWrite host q value => Sys2Proof.Machine.execCqevtWrite host q value s
  | .handleOpen host ctx slot => Sys2Proof.Machine.execHandleOpen host ctx slot s
  | .handleFree host ctx handle => Sys2Proof.Machine.execHandleFree host ctx handle s
  | .handleSlotFreed ctx slot => Sys2Proof.Machine.execHandleSlotFreed ctx slot s
  -- Launch and start (09 R202-R206)
  | .launchPlacement q => Sys2Proof.Machine.execLaunchPlacement q s
  | .startEntry core => Sys2Proof.Machine.execStartEntry core s
  | .groupT0Agreement gtag ticks => Sys2Proof.Machine.execGroupT0Agreement gtag ticks s
  | .groupColaunchTimeout gtag => Sys2Proof.Machine.execGroupColaunchTimeout gtag s
  | .loopcIdleTimeout q => Sys2Proof.Machine.execLoopcIdleTimeout q s
  | .stragglerEvent pid epoch => Sys2Proof.Machine.execStragglerEvent pid epoch s
  -- Issue (01 R21-R31, 18 R349)
  | .bundleIssue core gen follow => Sys2Proof.Machine.execBundleIssue core gen follow s
  | .slipTimeout core gen => Sys2Proof.Machine.execSlipTimeout core gen s
  | .handlerEntry core gen => Sys2Proof.Machine.execHandlerEntry core gen s
  | .resultLanding core => Sys2Proof.Machine.execResultLanding core s
  | .storePerform core seg bytes => Sys2Proof.Machine.execStorePerform core seg bytes s
  -- Locks and phasers (08 R176-R190, 10 R228)
  | .delayedArrival core gen => Sys2Proof.Machine.execDelayedArrival core gen s
  | .endArrival core due => Sys2Proof.Machine.execEndArrival core due s
  | .lockRelease pid stage core => Sys2Proof.Machine.execLockRelease pid stage core s
  | .waitBoundExceeded core gen slot => Sys2Proof.Machine.execWaitBoundExceeded core gen slot s
  | .phaserRelease pid ph core => Sys2Proof.Machine.execPhaserRelease pid ph core s
  -- Channels and trees (10 R212-R220)
  | .flitLinkEntry f => Sys2Proof.Machine.execFlitLinkEntry f s
  | .flitWrite f => Sys2Proof.Machine.execFlitWrite f s
  | .fragmentAck tile entry n phase => Sys2Proof.Machine.execFragmentAck tile entry n phase s
  | .treeMerge tile entry k input => Sys2Proof.Machine.execTreeMerge tile entry k input s
  | .treeResultWrite f => Sys2Proof.Machine.execTreeResultWrite f s
  -- Streams and the array (14 R297-R316, 12 R241)
  | .streamBeat tile eng run beat what => Sys2Proof.Machine.execStreamBeat tile eng run beat what s
  | .windowBeatEntry tile eng run beat => Sys2Proof.Machine.execWindowBeatEntry tile eng run beat s
  | .windowOutputWrite tile eng run beat value => Sys2Proof.Machine.execWindowOutputWrite tile eng run beat value s
  | .nestStart tile nest => Sys2Proof.Machine.execNestStart tile nest s
  | .arrayStep tile nest step ops => Sys2Proof.Machine.execArrayStep tile nest step ops s
  | .mclrPerform tile acc ticket => Sys2Proof.Machine.execMclrPerform tile acc ticket s
  | .bankSwap tile ticket => Sys2Proof.Machine.execBankSwap tile ticket s
  | .mredMerge sheaf row rows => Sys2Proof.Machine.execMredMerge sheaf row rows s
  | .slotDrainEnd tile slot => Sys2Proof.Machine.execSlotDrainEnd tile slot s
  -- Quays and collectives (15 R323-R340)
  | .quayUnit tile q serial unit data => Sys2Proof.Machine.execQuayUnit tile q serial unit data s
  | .quayComplete tile q serial => Sys2Proof.Machine.execQuayComplete tile q serial s
  | .collectiveCommit cid stage => Sys2Proof.Machine.execCollectiveCommit cid stage s
  | .collectiveAbort cid reason => Sys2Proof.Machine.execCollectiveAbort cid reason s
  -- Rollback (18 R355-R368)
  | .signatureMismatch core addr issued => Sys2Proof.Machine.execSignatureMismatch core addr issued s
  | .rerunRestart pid => Sys2Proof.Machine.execRerunRestart pid s
  | .segmentCommit core seg => Sys2Proof.Machine.execSegmentCommit core seg s
  | .roundCopy pid => Sys2Proof.Machine.execRoundCopy pid s
  | .roundRestore pid lostZone => Sys2Proof.Machine.execRoundRestore pid lostZone s
  -- Repair (19 R378-R386)
  | .sheafShiftStep field srow step => Sys2Proof.Machine.execSheafShiftStep field srow step s
  | .shiftCopyEnd field srow step => Sys2Proof.Machine.execShiftCopyEnd field srow step s
  | .zoneLoss fcol frow => Sys2Proof.Machine.execZoneLoss fcol frow s
  | .plannedZoneRetirement fcol frow => Sys2Proof.Machine.execPlannedZoneRetirement fcol frow s
  | .zoneMove fcol zrow => Sys2Proof.Machine.execZoneMove fcol zrow s
  | .zoneCopyEnd fcol zrow => Sys2Proof.Machine.execZoneCopyEnd fcol zrow s
  | .periodDeviationAlarm fcol frow => Sys2Proof.Machine.execPeriodDeviationAlarm fcol frow s
  | .dutyCycleAlarm fcol frow => Sys2Proof.Machine.execDutyCycleAlarm fcol frow s
  | .regulatorAlarm fcol frow => Sys2Proof.Machine.execRegulatorAlarm fcol frow s
  | .junctionTemperatureAlarm fcol frow => Sys2Proof.Machine.execJunctionTemperatureAlarm fcol frow s
  | .coolantFlowLoss => Sys2Proof.Machine.execCoolantFlowLoss s
  -- Optical circuits and groups (21 R399-R422)
  | .opticalFlitDeparture tile msg k => Sys2Proof.Machine.execOpticalFlitDeparture tile msg k s
  | .opticalFlitWrite f => Sys2Proof.Machine.execOpticalFlitWrite f s
  | .opticalAck tile msg => Sys2Proof.Machine.execOpticalAck tile msg s
  | .demandInterval depths => Sys2Proof.Machine.execDemandInterval depths s
  | .laneRetraining lane => Sys2Proof.Machine.execLaneRetraining lane s
  | .pause port length => Sys2Proof.Machine.execPause port length s
  | .pauseEnd port => Sys2Proof.Machine.execPauseEnd port s
  | .portLost port => Sys2Proof.Machine.execPortLost port s
  | .heartbeatLoss modid => Sys2Proof.Machine.execHeartbeatLoss modid s
  | .copyhtCompletion q => Sys2Proof.Machine.execCopyhtCompletion q s
  | .cardSpareMove card delay => Sys2Proof.Machine.execCardSpareMove card delay s
  | .driftMeasurement drift => Sys2Proof.Machine.execDriftMeasurement drift s

end Sys2Proof.Machine
end

