-- ==== Sys2Proof/Machine/Step.lean ====
section
/-! DEFINITION. One step of the machine. -/

namespace Sys2Proof.Machine

/-- One step: the bundle that is issuing goes on, else a command is served, else the agenda goes on. -/
def step (s : State) : Host.Outcome State Fault Refusal := stepWith execBundleIssue s

/-- The state with an instruction's word where the next step reads it: the slot of the issuing bundle that runs next. -/
def State.withFetchWord (s : State) (nbits w : Nat) : State := s.placeWord nbits w

end Sys2Proof.Machine
end

