-- ==== Sys2Proof/Safety.lean ====
section
/-! DEFINITION. What counts as a safe step and a safe run, and the forms that a state's tables keep. -/

namespace Sys2Proof

open Machine

/-- A step answers a next state. -/
def Safe (s : State) : Prop := ∃ t, step s = .next t

/-- `t` follows `s` in one step. -/
def Follows (s t : State) : Prop := step s = .next t

/-- `t` is reached from `s` by steps that each answer a next state. -/
inductive Reaches : State → State → Prop where
  | refl (s : State) : Reaches s s
  | next {s t u : State} : Reaches s t → Follows t u → Reaches s u

/-- The agenda is in order of cycle, rank and order (R177). -/
def Ordered : List Ev → Bool
  | [] => true
  | [_] => true
  | a :: b :: r => a.before b && Ordered (b :: r)

end Sys2Proof
end

