-- ==== Sys2Proof/Claims.lean ====
section
/-! DEFINITION. The words of the statements: what the spec gives an instruction's result, as data of its own, and what a state keeps. -/

namespace Sys2Proof.Claims

open Machine

/-! ## Words of the statements -/

/-- Instruction `i` completes in state `s` with `t`. -/
abbrev Runs (i : Instr) (s t : State) : Prop := exec i s = .next t

/-- `i` completes with some state that has property `q`. -/
def Ends (i : Instr) (s : State) (q : State → Prop) : Prop := ∃ t, exec i s = .next t ∧ q t

/-- The phase allows the forms of the M, V and W slots: a compute phase, or handler mode (R115, R135). -/
def Computes (s : State) : Prop := s.me.phase % 2 = 0 ∨ s.me.hm = true

/-- The bundle is issuing, and its core is in a table in canonical form. -/
structure Issuing (s : State) : Prop where
  active : s.latch.active = true
  table  : Table.wf Core.idle s.cores = true

/-- The trap record of a cause without further details beyond `a`, `b` (Table 18.1). -/
def Trapped (i : Instr) (s : State) (cause a b : Nat) : Prop :=
  exec i s = .next (s.trapNow { cause := cause, t0 := a, t1 := b, t2 := 0, imp := false })

/-- The slot number of the running slot in a trap's details. -/
def slotIndex (s : State) : Nat :=
  match s.latch.slot with
  | .k => 0 | .m => 1 | .v => 2 | .w => 3 | .x => 4

/-- Every byte of the tile memories reads alike: tile store, operand memory, accumulator banks. -/
def SameTileBytes (s t : State) : Prop :=
  ∀ n a, Memory.read (t.tile n).store a = Memory.read (s.tile n).store a ∧
    Memory.read (t.tile n).om a = Memory.read (s.tile n).om a ∧
    Memory.read (t.tile n).acc0 a = Memory.read (s.tile n).acc0 a ∧
    Memory.read (t.tile n).acc1 a = Memory.read (s.tile n).acc1 a

/-- Every byte of every memory reads alike. -/
def SameBytes (s t : State) : Prop :=
  SameTileBytes s t ∧ (∀ a, Memory.read t.tier a = Memory.read s.tier a) ∧
    ∀ a, Memory.read t.hostMem a = Memory.read s.hostMem a

/-- Between `s` and `t` only the writes in flight of the issuing core, its pending imprecise causes, the bundle's latch and the
agenda differ: every register, flag, predicate, CSR, memory, tile, partition and queue is the same. -/
def OnlyInFlight (s t : State) : Prop :=
  ∃ fs ps l ag n,
    t = { s with
      latch := l, agenda := ag, order := n,
      cores := Table.set Core.idle s.cores s.latch.core
        { s.me with pending := ps, regs := { s.me.regs with flights := fs } } }

/-- `v` is in flight to register `r` of the issuing core, readable `lat` cycles on: the one new write is at the end of the list,
and its landing is scheduled. -/
def InFlight (s t : State) (lat : Nat) (r : RegId) (v : Vec) : Prop :=
  ∃ f, f.land = s.now + lat ∧ f.dest = .reg r ∧ f.val = v ∧ t.me.regs.flights = s.me.regs.flights ++ [f] ∧
    ∃ e ∈ t.agenda, e.at_ = s.now + lat ∧ e.ev = .resultLanding s.latch.core

/-- 64 bits in a 512-bit register (R14). -/
def low64 (v : Word) : Vec := v.setWidth 512

/-! ## Scalar results (R88-R91, Tables 4.1 and 4.2) -/

/-- The number of zero bits above the highest one bit. -/
def leadingZeros (a : Word) : Nat := if a = 0 then 64 else 63 - Nat.log2 a.toNat

/-- The largest `n` up to 64 such that 2^n divides the word. -/
def trailingZeros (a : Word) : Nat := ((List.range 64).filter fun n => decide (a.toNat % 2 ^ (n + 1) = 0)).length

def oneBits (a : Word) : Nat := ((List.range 64).filter fun n => decide (a.toNat / 2 ^ n % 2 = 1)).length

/-- Division of Table 4.1 as R89 gives it: quotient and remainder as integers, all ones for a quotient by zero. -/
def quotient (a b : Int) : Int := if b = 0 then 2 ^ 64 - 1 else Int.tdiv a b
def remainder (a b : Int) : Int := if b = 0 then a else a - b * Int.tdiv a b

/-- A shift left, right and arithmetic right by a count (R88). -/
def shiftLeft (u n : Nat) : Int := if n < 64 then (u * 2 ^ n : Nat) else 0
def shiftRight (u n : Nat) : Int := if n < 64 then (u / 2 ^ n : Nat) else 0
def shiftArith (a : Int) (n : Nat) : Int := a / (2 ^ min n 63 : Nat)

/-- The latency, destination and integer result of a scalar form of the K slot: k(D) receives its low 64 bits. -/
def kResult? : Instr → State → Option (Nat × BitVec 5 × Int)
  | .add d a b, s => some (1, d, (s.k a).toInt + (s.k b).toInt)
  | .sub d a b, s => some (1, d, (s.k a).toInt - (s.k b).toInt)
  | .and d a b, s => some (1, d, ((s.k a).toNat &&& (s.k b).toNat : Nat))
  | .or d a b, s => some (1, d, ((s.k a).toNat ||| (s.k b).toNat : Nat))
  | .xor d a b, s => some (1, d, ((s.k a).toNat ^^^ (s.k b).toNat : Nat))
  | .andn d a b, s => some (1, d, ((s.k a).toNat &&& (2 ^ 64 - 1 - (s.k b).toNat) : Nat))
  | .shl d a b, s => some (1, d, shiftLeft (s.k a).toNat (s.k b).toNat)
  | .shr d a b, s => some (1, d, shiftRight (s.k a).toNat (s.k b).toNat)
  | .sra d a b, s => some (1, d, shiftArith (s.k a).toInt (s.k b).toNat)
  | .min d a b, s => some (1, d, min (s.k a).toInt (s.k b).toInt)
  | .max d a b, s => some (1, d, max (s.k a).toInt (s.k b).toInt)
  | .minn d a b, s => some (1, d, (min (s.k a).toNat (s.k b).toNat : Nat))
  | .maxn d a b, s => some (1, d, (max (s.k a).toNat (s.k b).toNat : Nat))
  | .mul d a b, s => some (3, d, (s.k a).toInt * (s.k b).toInt)
  | .mulh d a b, s => some (3, d, (s.k a).toInt * (s.k b).toInt / 2 ^ 64)
  | .mulhn d a b, s => some (3, d, ((s.k a).toNat * (s.k b).toNat / 2 ^ 64 : Nat))
  | .div d a b, s => some (20, d, quotient (s.k a).toInt (s.k b).toInt)
  | .divn d a b, s => some (20, d, quotient (s.k a).toNat (s.k b).toNat)
  | .rem d a b, s => some (20, d, remainder (s.k a).toInt (s.k b).toInt)
  | .remn d a b, s => some (20, d, remainder (s.k a).toNat (s.k b).toNat)
  | .clz d a, s => some (1, d, leadingZeros (s.k a))
  | .ctz d a, s => some (1, d, trailingZeros (s.k a))
  | .popc d a, s => some (1, d, oneBits (s.k a))
  | .sel d a b p, s => some (1, d, if s.p p then (s.k a).toNat else (s.k b).toNat)
  | .addi d a i, s => some (1, d, (s.k a).toInt + (s.imm32 i).toInt)
  | .andi d a i, s => some (1, d, ((s.k a).toNat &&& (s.imm32 i).toNat : Nat))
  | .ori d a i, s => some (1, d, ((s.k a).toNat ||| (s.imm32 i).toNat : Nat))
  | .xori d a i, s => some (1, d, ((s.k a).toNat ^^^ (s.imm32 i).toNat : Nat))
  | .shli d a i, s => some (1, d, shiftLeft (s.k a).toNat i.toNat)
  | .shri d a i, s => some (1, d, shiftRight (s.k a).toNat i.toNat)
  | .srai d a i, s => some (1, d, shiftArith (s.k a).toInt i.toNat)
  | .movi d i, s => some (1, d, (s.imm32 i).toInt)
  | .muli d a i, s => some (3, d, (s.k a).toInt * (s.imm32 i).toInt)
  | _, _ => none

/-- A comparison of Table 4.3 by its COND code. -/
def compare : Nat → Word → Word → Prop
  | 0, a, b => a = b
  | 1, a, b => a ≠ b
  | 2, a, b => a.toInt < b.toInt
  | 3, a, b => a.toInt ≤ b.toInt
  | 4, a, b => a.toNat < b.toNat
  | _, a, b => a.toNat ≤ b.toNat

/-- The predicate that a compare or predicate form writes, and when it is 1 (R92, R93). -/
def pResult? : Instr → State → Option (BitVec 4 × Prop)
  | .cmpEq d a b, s => some (d, compare 0 (s.k a) (s.k b))
  | .cmpNe d a b, s => some (d, compare 1 (s.k a) (s.k b))
  | .cmpLt d a b, s => some (d, compare 2 (s.k a) (s.k b))
  | .cmpLe d a b, s => some (d, compare 3 (s.k a) (s.k b))
  | .cmpLtn d a b, s => some (d, compare 4 (s.k a) (s.k b))
  | .cmpLen d a b, s => some (d, compare 5 (s.k a) (s.k b))
  | .cmpiEq d a i, s => some (d, compare 0 (s.k a) (s.imm24 i))
  | .cmpiNe d a i, s => some (d, compare 1 (s.k a) (s.imm24 i))
  | .cmpiLt d a i, s => some (d, compare 2 (s.k a) (s.imm24 i))
  | .cmpiLe d a i, s => some (d, compare 3 (s.k a) (s.imm24 i))
  | .cmpiLtn d a i, s => some (d, compare 4 (s.k a) (s.imm24 i))
  | .cmpiLen d a i, s => some (d, compare 5 (s.k a) (s.imm24 i))
  | .pand d a b, s => some (d, s.p a = true ∧ s.p b = true)
  | .por d a b, s => some (d, s.p a = true ∨ s.p b = true)
  | .pxor d a b, s => some (d, ¬ (s.p a = true ↔ s.p b = true))
  | .pandn d a b, s => some (d, s.p a = true ∧ s.p b = false)
  | _, _ => none

/-! ## Where a result goes -/

/-- What a write to `r` by the issuing core reaches: the register, or the output window bound to it (R140). -/
def target (s : State) (r : RegId) : Dest :=
  match s.bound s.latch.core r with
  | some (e, x, true) => .push r e x.id
  | _ => .reg r

/-- The write of `v` to `r` that the issuing bundle makes with priority `prio` (R23), readable `lat` cycles on. -/
def flight (s : State) (prio lat : Nat) (r : RegId) (v : Vec) : Flight :=
  { land := s.now + lat, seq := s.latch.seq, prio := prio, dest := target s r, val := v }

/-- The writes in flight of the issuing core in `t` are those of `s` and then `fs`; the landing of each is scheduled. -/
def Launches (s t : State) (fs : List Flight) : Prop :=
  t.me.regs.flights = s.me.regs.flights ++ fs ∧
    ∀ f ∈ fs, ∃ e ∈ t.agenda, e.at_ = f.land ∧ e.ev = .resultLanding s.latch.core

/-- `t` is `s` with `v` in flight to `r`; a write of k0, a0, x0 or p0 is discarded and leaves `s` (R12, R13). -/
def Writes (s t : State) (prio lat : Nat) (r : RegId) (v : Vec) : Prop :=
  if r.zero = true then t = s
  else OnlyInFlight s t ∧ Launches s t [flight s prio lat r v] ∧ t.me.pending = s.me.pending ∧ t.latch = s.latch

/-- The imprecise trap 0x0E of a result with NaN lanes `nans` (R139). -/
def nanTrap (s : State) (d : BitVec 10) (nans : Nat) : TrapInfo :=
  { cause := 0x0E, t0 := s.latch.addr.toNat, t1 := slotIndex s + 2 ^ 16 * s.me.regs.phys (vfileOf s.latch.slot) d.toNat, t2 := nans,
    imp := true }

/-- `t` is `s` with a vector result in flight to D, its flags with it (R83) and the NaN report that R139 asks for; only the
count of random words drawn may differ beside. -/
def Delivers (s t : State) (lat : Nat) (d : BitVec 10) (v : Vec) (flags nans draws : Nat) : Prop :=
  OnlyInFlight s t ∧
    Launches s t (flight s 0 lat (s.dst d) v ::
      (if flags = 0 then [] else
        [{ land := s.now + lat, seq := s.latch.seq, prio := 0, dest := .flags, val := BitVec.ofNat 512 flags }])) ∧
    t.me.pending = s.me.pending ++
      (if nans ≠ 0 ∧ s.me.regs.fmode.getLsbD 9 = true ∧ s.me.hm = false then
        [{ due := s.now + lat, info := nanTrap s d nans }] else []) ∧
    t.latch = { s.latch with draws := s.latch.draws + draws }

/-! ## Lanes (R137) -/

/-- The widths of the lane types. -/
abbrev iw (t : IType) : Nat := IType.width t
abbrev fw (t : FType) : Nat := FType.width t

/-- Lane `i` of width `w` of source register `r`. -/
def src (s : State) (w : Nat) (r : BitVec 10) (i : Nat) : Nat := (s.src r).toNat / 2 ^ (w * i) % 2 ^ w

/-- The value of a lane of an integer type. -/
def value (t : IType) (x : Nat) : Int :=
  if IType.signed t = true ∧ 2 ^ (IType.width t - 1) ≤ x then (x : Int) - 2 ^ IType.width t else x

/-- A lane read as a signed number. -/
def signedValue (w x : Nat) : Int := if 2 ^ (w - 1) ≤ x then (x : Int) - 2 ^ w else x

/-- The least and the largest value of a type (Table 3.3). -/
def least (t : IType) : Int := if IType.signed t = true then -(2 ^ (IType.width t - 1)) else 0
def largest (t : IType) : Int := if IType.signed t = true then 2 ^ (IType.width t - 1) - 1 else 2 ^ IType.width t - 1

/-- wrap(v, t), or sat(v, t) under SAT (R79). -/
def fit (t : IType) (sat : Bool) (v : Int) : Nat :=
  ((if sat then max (least t) (min (largest t) v) else v) % 2 ^ IType.width t).toNat

/-- A mask lane. -/
def mask (w : Nat) (p : Prop) [Decidable p] : Nat := if p then 2 ^ w - 1 else 0

/-- A lane-wise integer form: its latency, destination, width and lane `i` (Tables 6.1, R143, R145, R155). -/
def vInt? : Instr → State → Option (Nat × BitVec 10 × Nat × (Nat → Nat))
  | .vadd d a b t sat, s => some (2, d, (iw t), fun i => fit t sat (value t (src s (iw t) a i) + value t (src s (iw t) b i)))
  | .vsub d a b t sat, s => some (2, d, (iw t), fun i => fit t sat (value t (src s (iw t) a i) - value t (src s (iw t) b i)))
  | .vmul d a b t sat, s => some (3, d, (iw t), fun i => fit t sat (value t (src s (iw t) a i) * value t (src s (iw t) b i)))
  | .vmulh d a b t _, s => some (3, d, (iw t), fun i =>
      fit t false (value t (src s (iw t) a i) * value t (src s (iw t) b i) / 2 ^ (iw t)))
  | .vmin d a b t _, s => some (2, d, (iw t), fun i => fit t false (min (value t (src s (iw t) a i)) (value t (src s (iw t) b i))))
  | .vmax d a b t _, s => some (2, d, (iw t), fun i => fit t false (max (value t (src s (iw t) a i)) (value t (src s (iw t) b i))))
  | .vand d a b t _, s => some (2, d, (iw t), fun i => src s (iw t) a i &&& src s (iw t) b i)
  | .vor d a b t _, s => some (2, d, (iw t), fun i => src s (iw t) a i ||| src s (iw t) b i)
  | .vxor d a b t _, s => some (2, d, (iw t), fun i => src s (iw t) a i ^^^ src s (iw t) b i)
  | .vshl d a b t sat, s => some (2, d, (iw t), fun i => fit t sat (value t (src s (iw t) a i) * 2 ^ src s (iw t) b i))
  | .vshr d a b t _, s => some (2, d, (iw t), fun i => src s (iw t) a i / 2 ^ src s (iw t) b i)
  | .vsra d a b t _, s => some (2, d, (iw t), fun i =>
      fit t false (signedValue (iw t) (src s (iw t) a i) / 2 ^ min (src s (iw t) b i) ((iw t) - 1)))
  | .vabs d a t sat, s => some (2, d, (iw t), fun i => fit t sat ((value t (src s (iw t) a i)).natAbs : Nat))
  | .vcmpEq d a b t, s => some (2, d, (iw t), fun i => mask (iw t) (value t (src s (iw t) a i) = value t (src s (iw t) b i)))
  | .vcmpNe d a b t, s => some (2, d, (iw t), fun i => mask (iw t) (value t (src s (iw t) a i) ≠ value t (src s (iw t) b i)))
  | .vcmpLt d a b t, s => some (2, d, (iw t), fun i => mask (iw t) (value t (src s (iw t) a i) < value t (src s (iw t) b i)))
  | .vcmpLe d a b t, s => some (2, d, (iw t), fun i => mask (iw t) (value t (src s (iw t) a i) ≤ value t (src s (iw t) b i)))
  | .vcmpGt d a b t, s => some (2, d, (iw t), fun i => mask (iw t) (value t (src s (iw t) b i) < value t (src s (iw t) a i)))
  | .vcmpGe d a b t, s => some (2, d, (iw t), fun i => mask (iw t) (value t (src s (iw t) b i) ≤ value t (src s (iw t) a i)))
  | .vcmpUo d _ _ t, _ => some (2, d, (iw t), fun _ => 0)
  | .vcmpOrd d _ _ t, _ => some (2, d, (iw t), fun _ => 2 ^ (iw t) - 1)
  | .vsel d a b c t, s => some (2, d, (iw t), fun i =>
      if src s (iw t) c i / 2 ^ ((iw t) - 1) = 1 then src s (iw t) a i else src s (iw t) b i)
  | .vaddi d a imm t, s => some (2, d, (iw t), fun i => fit t false (value t (src s (iw t) a i) + s.imm23 imm))
  | .vshli d a imm t, s => some (2, d, (iw t), fun i => fit t false (value t (src s (iw t) a i) * 2 ^ imm.toNat))
  | .vshri d a imm t, s => some (2, d, (iw t), fun i => src s (iw t) a i / 2 ^ imm.toNat)
  | .vsrai d a imm t, s => some (2, d, (iw t), fun i =>
      fit t false (signedValue (iw t) (src s (iw t) a i) / 2 ^ min imm.toNat ((iw t) - 1)))
  | .vmovi d imm t, s => some (2, d, (iw t), fun _ => fit t false (s.imm23 imm))
  | .vperm d a b t, s => some (2, d, (iw t), fun i => src s (iw t) a (src s (iw t) b i % (512 / (iw t))))
  | .vbcast d a t l, s => some (2, d, (iw t), fun _ => src s (iw t) a l.toNat)
  | .vslide d a b t k, s => some (2, d, (iw t), fun i =>
      if i + k.toNat < 512 / (iw t) then src s (iw t) a (i + k.toNat) else src s (iw t) b (i + k.toNat - 512 / (iw t)))
  | .vzipLo d a b t, s => some (2, d, (iw t), fun i => src s (iw t) (if i % 2 = 0 then a else b) (i / 2))
  | .vzipHi d a b t, s => some (2, d, (iw t), fun i => src s (iw t) (if i % 2 = 0 then a else b) (i / 2 + 256 / (iw t)))
  | .vzipEven d a b t, s => some (2, d, (iw t), fun i =>
      if i < 256 / (iw t) then src s (iw t) a (2 * i) else src s (iw t) b (2 * (i - 256 / (iw t))))
  | .vzipOdd d a b t, s => some (2, d, (iw t), fun i =>
      if i < 256 / (iw t) then src s (iw t) a (2 * i + 1) else src s (iw t) b (2 * (i - 256 / (iw t)) + 1))
  | .vmov d a, s => some (2, d, 512, fun i => src s 512 a i)
  | _, _ => none

/-- Byte `j` of a register, read as signed or unsigned (R144). -/
def byteOf (s : State) (signed : Bool) (r : BitVec 10) (j : Nat) : Int :=
  if signed then signedValue 8 (src s 8 r j) else src s 8 r j

/-- The four products of a VDOT4 lane and its addend, summed exactly (R144). -/
def dotSum (s : State) (sa sb : Bool) (t : IType) (a b c : BitVec 10) (i : Nat) : Int :=
  value t (src s 32 c i) + byteOf s sa a (4 * i) * byteOf s sb b (4 * i) + byteOf s sa a (4 * i + 1) * byteOf s sb b (4 * i + 1) +
    byteOf s sa a (4 * i + 2) * byteOf s sb b (4 * i + 2) + byteOf s sa a (4 * i + 3) * byteOf s sb b (4 * i + 3)

/-- The signs and the type of the VDOT4 variants. -/
def vDot? : Instr → Option (Bool × Bool × IType × BitVec 10 × BitVec 10 × BitVec 10 × BitVec 10 × Bool)
  | .vdot4Ss d a b c sat => some (true, true, .i32, d, a, b, c, sat)
  | .vdot4Su d a b c sat => some (true, false, .i32, d, a, b, c, sat)
  | .vdot4Us d a b c sat => some (false, true, .i32, d, a, b, c, sat)
  | .vdot4Uu d a b c sat => some (false, false, .n32, d, a, b, c, sat)
  | _ => none

/-- The lanes of a register combined in order. -/
def foldLanes (s : State) (w : Nat) (r : BitVec 10) (f : Nat → Nat → Nat) : Nat :=
  ((List.range (512 / w - 1)).map fun i => src s w r (i + 1)).foldl f (src s w r 0)

/-- A reduction: its destination, width and lane 0 (R154). -/
def vRed? : Instr → State → Option (BitVec 10 × Nat × Nat)
  | .vredAdd d a t, s => some (d, (iw t), ((List.range (512 / (iw t))).map (src s (iw t) a)).sum % 2 ^ (iw t))
  | .vredMax d a t, s => some (d, (iw t), foldLanes s (iw t) a fun x y => if value t x < value t y then y else x)
  | .vredMin d a t, s => some (d, (iw t), foldLanes s (iw t) a fun x y => if value t y < value t x then y else x)
  | .vredAnd d a t, s => some (d, (iw t), foldLanes s (iw t) a fun x y => x &&& y)
  | .vredOr d a t, s => some (d, (iw t), foldLanes s (iw t) a fun x y => x ||| y)
  | .vredXor d a t, s => some (d, (iw t), foldLanes s (iw t) a fun x y => x ^^^ y)
  | _, _ => none

/-- `t` is `s` with a vector result in flight to D whose lanes of width `w` are `f`. -/
def WritesLanes (s t : State) (lat : Nat) (d : BitVec 10) (w : Nat) (f : Nat → Nat) : Prop :=
  ∃ v : Vec, Writes s t 0 lat (s.dst d) v ∧ ∀ i, i < 512 / w → v.toNat / 2 ^ (w * i) % 2 ^ w = f i

/-! ## Float lanes (R138, R146-R153) -/

/-- The value of lane `i` of a float source. -/
def fsrc (s : State) (t : FType) (r : BitVec 10) (i : Nat) : FVal := decodeF (FType.fmt t) (src s (fw t) r i)

/-- The random word of lane `i`: the form's counter value under RS (R76, R138). -/
def randOf (s : State) (m : RMode) (i : Nat) : Nat := if m = .rs then rand16 s.rndKey s.rndCtr i else 0

/-- encode(round_fmt(x, TYPE, rm, 0, i), TYPE) with the flags of the rounding and those of the operation (R75, R82). -/
def rounded (t : FType) (m : RMode) (rnd : Nat) (x : FVal × Nat) : Nat × Nat :=
  ((roundF (FType.fmt t) m false rnd x.1).1, (roundF (FType.fmt t) m false rnd x.1).2 ||| x.2)

/-- The exact sum of two values in mode `m` (R138). -/
def sum (m : RMode) (x y : FVal) : FVal × Nat := addV (decide (m = .rd)) x y

/-- A fused product and addend (R146). -/
def fused (m : RMode) (negP negC : Bool) (x y z : FVal) : FVal × Nat :=
  let p := mulV x y
  let r := sum m (if negP then p.1.neg else p.1) (if negC then z.neg else z)
  (r.1, r.2 ||| p.2)

/-- A float form whose lanes are rounded: latency, destination, type, mode, the exact lane `i` (Table 6.2, R150). -/
def vExact? : Instr → State → Option (Nat × BitVec 10 × FType × RMode × (Nat → FVal × Nat))
  | .vfadd d a b t rm, s => some (4, d, t, s.rmode rm, fun i => sum (s.rmode rm) (fsrc s t a i) (fsrc s t b i))
  | .vfsub d a b t rm, s => some (4, d, t, s.rmode rm, fun i => sum (s.rmode rm) (fsrc s t a i) (fsrc s t b i).neg)
  | .vfmul d a b t rm, s => some (4, d, t, s.rmode rm, fun i => mulV (fsrc s t a i) (fsrc s t b i))
  | .vfma d a b c t rm, s => some (4, d, t, s.rmode rm, fun i => fused (s.rmode rm) false false (fsrc s t a i) (fsrc s t b i) (fsrc s t c i))
  | .vfms d a b c t rm, s => some (4, d, t, s.rmode rm, fun i => fused (s.rmode rm) false true (fsrc s t a i) (fsrc s t b i) (fsrc s t c i))
  | .vfnma d a b c t rm, s => some (4, d, t, s.rmode rm, fun i => fused (s.rmode rm) true false (fsrc s t a i) (fsrc s t b i) (fsrc s t c i))
  | .vfdiv d a b t rm, s => some (12, d, t, s.rmode rm, fun i => divV (fsrc s t a i) (fsrc s t b i))
  | .vfsqrt d a t rm, s => some (12, d, t, s.rmode rm, fun i => sqrtV (fsrc s t a i))
  | .vfmin d a b t, s => some (2, d, t, .rne, fun i => fminV false (fsrc s t a i) (fsrc s t b i))
  | .vfmax d a b t, s => some (2, d, t, .rne, fun i => fminV true (fsrc s t a i) (fsrc s t b i))
  | .vfrcp d a t, s => some (6, d, t, .rne, fun i => rcpV (fsrc s t a i))
  | .vfrsq d a t, s => some (6, d, t, .rne, fun i => rsqV (fsrc s t a i))
  | .vfexp2 d a t, s => some (8, d, t, .rne, fun i => exp2V (fsrc s t a i))
  | .vflog2 d a t, s => some (8, d, t, .rne, fun i => log2V (fsrc s t a i))
  | .vfactTanh d a t, s => some (8, d, t, .rne, fun i => tanhV (fsrc s t a i))
  | .vfactSigm d a t, s => some (8, d, t, .rne, fun i => sigmV (fsrc s t a i))
  | .vfactGelu d a t, s => some (8, d, t, .rne, fun i => geluV geluRef (fsrc s t a i))
  | .vfactSilu d a t, s => some (8, d, t, .rne, fun i => geluV siluRef (fsrc s t a i))
  | _, _ => none

/-- The sign bit of lane `i`. -/
def neg? (s : State) (t : FType) (r : BitVec 10) (i : Nat) : Bool := decide (src s (fw t) r i / 2 ^ ((fw t) - 1) = 1)

/-- A lane with the sign bit `n`: a NaN is canonical, and NV is raised for a signalling one (R148). -/
def signed (t : FType) (n : Bool) (x : Nat) : Nat × Nat :=
  match decodeF (FType.fmt t) x with
  | .nan sig => (canonNan (FType.fmt t), if sig then 16 else 0)
  | _ => (x % 2 ^ ((fw t) - 1) + (if n then 2 ^ ((fw t) - 1) else 0), 0)

/-- A mask lane with NV for a signalling operand (R147). -/
def fmask (t : FType) (b : Bool) (x y : FVal) : Nat × Nat :=
  (if b then 2 ^ (fw t) - 1 else 0, if x.isSig || y.isSig then 16 else 0)

/-- A float form with lanes of its own: latency, destination, width, mode, whether it reports NaNs, lane `i` with its flags
(R147, R148, R149). -/
def vLane? : Instr → State → Option (Nat × BitVec 10 × FType × RMode × Bool × (Nat → Nat × Nat))
  | .vfcmpEq d a b t, s => some (2, d, t, .rne, false, fun i => fmask t (eqV (fsrc s t a i) (fsrc s t b i)) (fsrc s t a i) (fsrc s t b i))
  | .vfcmpNe d a b t, s => some (2, d, t, .rne, false, fun i => fmask t (!eqV (fsrc s t a i) (fsrc s t b i)) (fsrc s t a i) (fsrc s t b i))
  | .vfcmpLt d a b t, s => some (2, d, t, .rne, false, fun i => fmask t (ltV (fsrc s t a i) (fsrc s t b i)) (fsrc s t a i) (fsrc s t b i))
  | .vfcmpLe d a b t, s => some (2, d, t, .rne, false, fun i =>
      fmask t (ltV (fsrc s t a i) (fsrc s t b i) || eqV (fsrc s t a i) (fsrc s t b i)) (fsrc s t a i) (fsrc s t b i))
  | .vfcmpGt d a b t, s => some (2, d, t, .rne, false, fun i => fmask t (ltV (fsrc s t b i) (fsrc s t a i)) (fsrc s t a i) (fsrc s t b i))
  | .vfcmpGe d a b t, s => some (2, d, t, .rne, false, fun i =>
      fmask t (ltV (fsrc s t b i) (fsrc s t a i) || eqV (fsrc s t a i) (fsrc s t b i)) (fsrc s t a i) (fsrc s t b i))
  | .vfcmpUo d a b t, s => some (2, d, t, .rne, false, fun i =>
      fmask t ((fsrc s t a i).isNan || (fsrc s t b i).isNan) (fsrc s t a i) (fsrc s t b i))
  | .vfcmpOrd d a b t, s => some (2, d, t, .rne, false, fun i =>
      fmask t (!(fsrc s t a i).isNan && !(fsrc s t b i).isNan) (fsrc s t a i) (fsrc s t b i))
  | .vfsgnCopy d a b t, s => some (2, d, t, .rne, true, fun i => signed t (neg? s t b i) (src s (fw t) a i))
  | .vfsgnNcopy d a b t, s => some (2, d, t, .rne, true, fun i => signed t (!neg? s t b i) (src s (fw t) a i))
  | .vfsgnXor d a b t, s => some (2, d, t, .rne, true, fun i => signed t (xor (neg? s t a i) (neg? s t b i)) (src s (fw t) a i))
  | .vfsgnAbs d a t, s => some (2, d, t, .rne, true, fun i => signed t false (src s (fw t) a i))
  | .vfsgnNeg d a t, s => some (2, d, t, .rne, true, fun i => signed t (!neg? s t a i) (src s (fw t) a i))
  | .vfrnd d a t rm, s => some (4, d, t, s.rmode rm, true, fun i => rndLane t (s.rmode rm) (fsrc s t a i) (randOf s (s.rmode rm) i))
  | _, _ => none

/-- The OR of the flags of lanes 0 to n - 1. -/
def orFlags (n : Nat) (f : Nat → Nat × Nat) : Nat := (List.range n).foldl (fun x i => x ||| (f i).2) 0

/-- The set of the lanes 0 to n - 1 that are NaNs of a format. -/
def nanSet (n : Nat) (fmt : Fmt) (f : Nat → Nat × Nat) : Nat :=
  ((List.range n).map fun i => if (decodeF fmt (f i).1).isNan then 2 ^ i else 0).sum

/-- `t` is `s` with a result delivered whose `n` lanes of width `w` and format `fmt` are `f`, zero above. -/
def DeliversLanes (s t : State) (lat : Nat) (d : BitVec 10) (w n : Nat) (fmt : Fmt) (nan : Bool) (draws : Nat)
    (f : Nat → Nat × Nat) : Prop :=
  ∃ v : Vec, Delivers s t lat d v (orFlags n f) (if nan then nanSet n fmt f else 0) draws ∧ v.toNat < 2 ^ (w * n) ∧
    ∀ i, i < n → v.toNat / 2 ^ (w * i) % 2 ^ w = (f i).1

/-- One consumer's draw under RS (R77). -/
def drawsOf (m : RMode) : Nat := if m = .rs then 1 else 0

/-! ## Classes, conversions, blocks, trees (R84, R149, R151-R156) -/

/-- The one bit of VFCLS for a value (R149). -/
def classBit (fmt : Fmt) (x : FVal) : Nat :=
  match x with
  | .inf true => 2 ^ 0
  | .zero true => 2 ^ 3
  | .zero false => 2 ^ 4
  | .inf false => 2 ^ 7
  | .nan true => 2 ^ 8
  | .nan false => 2 ^ 9
  | .fin q =>
    if q < 0 then (if -q < pow2 (1 - (Fmt.bias fmt : Int)) then 2 ^ 2 else 2 ^ 1)
    else (if q < pow2 (1 - (Fmt.bias fmt : Int)) then 2 ^ 5 else 2 ^ 6)

/-- Element `b` of a VCVT (R151): integers wrap or saturate, everything else is rounded, with NV for a signalling NaN. -/
def convert (df sf : Fmt) (m : RMode) (sat : Bool) (rnd b : Nat) : Nat × Nat :=
  if Fmt.isInt sf = true ∧ Fmt.isInt df = true then
    (((if sat then max (intMin df) (min (intMax df) (decodeI sf b)) else decodeI sf b) % 2 ^ Fmt.width df).toNat, 0)
  else
    ((roundAny df m sat rnd (decodeAny sf b)).1,
      (roundAny df m sat rnd (decodeAny sf b)).2 ||| (if (decodeAny sf b).isSig then 16 else 0))

/-- The elements that a VCVT converts. -/
def convertCount (df sf : Fmt) : Nat := 512 / max (Fmt.width sf) (Fmt.width df)

/-- The 24 values of a VQBLK (R152): the lanes of A and the low eight of B. -/
def blockInputs (s : State) (a b : BitVec 10) : List FVal :=
  (List.range 24).map fun i => if i < 16 then fsrc s .f32 a i else fsrc s .f32 b (i - 16)

/-- The block format of a VQBLK. -/
def vQuant? : Instr → Option (Blk × BitVec 10 × BitVec 10 × BitVec 10 × RMode)
  | .vqblkB4 d a b rm => some (.b4, d, a, b, rm)
  | .vqblkB10 d a b rm => some (.b10, d, a, b, rm)
  | _ => none

/-- The block format, lane format, first element and number of elements of a VDQBLK (R153). -/
def vDequant? : Instr → Option (Blk × Fmt × Nat × Nat × BitVec 10 × BitVec 10)
  | .vdqblkB4Bf24 d a => some (.b4, .bf16, 0, 24, d, a)
  | .vdqblkB4Lo d a => some (.b4, .f32, 0, 16, d, a)
  | .vdqblkB4Hi d a => some (.b4, .f32, 16, 8, d, a)
  | .vdqblkB10Bf24 d a => some (.b10, .bf16, 0, 24, d, a)
  | .vdqblkB10Lo d a => some (.b10, .f32, 0, 16, d, a)
  | .vdqblkB10Hi d a => some (.b10, .f32, 16, 8, d, a)
  | _ => none

/-- Node `i` of level `k` of the pairwise tree over the lanes `x`, with the flags of all its steps (R84). -/
def treeNode (f : FVal → FVal → FVal × Nat) (x : Nat → FVal) : Nat → Nat → FVal × Nat
  | 0, i => (x i, 0)
  | k + 1, i =>
    let l := treeNode f x k (2 * i)
    let r := treeNode f x k (2 * i + 1)
    ((f l.1 r.1).1, l.2 ||| r.2 ||| (f l.1 r.1).2)

/-- The node of a VFRED: a sum rounded RNE to f32, or fmax or fmin (R154). -/
def vfRed? : Instr → Option ((FVal → FVal → FVal × Nat) × FType × BitVec 10 × BitVec 10)
  | .vfredSum d a t => some (fun x y =>
      (decodeF .f32 (roundF .f32 .rne false 0 (sum .rne x y).1).1, (roundF .f32 .rne false 0 (sum .rne x y).1).2 ||| (sum .rne x y).2), t, d, a)
  | .vfredMax d a t => some (fminV true, t, d, a)
  | .vfredMin d a t => some (fminV false, t, d, a)
  | _ => none

/-- The levels of the tree of a type: 16 lanes or 32. -/
def levels : FType → Nat
  | .f32 => 4
  | _ => 5

/-! ## Copies between files (R55, R111, R133, R161, Tables 4.7 and 6.6) -/

/-- The whole source of an XCOPY, in the running slot's own file. -/
def copySource (s : State) (r : BitVec 10) : Vec :=
  match s.latch.slot with
  | .k => s.me.regs.get (.k r.toNat)
  | .m => s.me.regs.get (.a r.toNat)
  | .v => s.vec .v r.toNat
  | .w => s.vec .w r.toNat
  | .x => s.me.regs.get (.x r.toNat)

/-- The slots whose every form needs a compute phase. -/
def needsCompute (s : State) : Prop := s.latch.slot = .m ∨ s.latch.slot = .v ∨ s.latch.slot = .w

/-- The order of a copy among the writes of its bundle to its register (R23): first as a write of the file's own slot, else by slot. -/
def copyRank (s : State) (f : DFile) : Nat :=
  match s.latch.slot, f with
  | .k, .k | .k, .p | .m, .m | .v, .v | .w, .w | .x, .x => 0
  | _, _ => 2 + slotIndex s

/-- The 32 bits of a lane-mode copy: lane `l` of a vector source, bits [31:0] of a scalar one. -/
def copyLane (s : State) (r : BitVec 10) (l : Nat) : Nat :=
  if s.latch.slot = .v ∨ s.latch.slot = .w then (copySource s r).toNat / 2 ^ (32 * l) % 2 ^ 32 else (copySource s r).toNat % 2 ^ 32

/-- What a whole copy leaves in a file. -/
def copyWhole (f : DFile) (v : Vec) : Vec :=
  match f with
  | .v | .w => v
  | .p => BitVec.ofNat 512 (v.toNat % 2)
  | _ => BitVec.ofNat 512 (v.toNat % 2 ^ 64)

/-! ## Address and memory forms (R116-R126) -/

/-- The destination and value of an address form (Table 5.1). -/
def aResult? : Instr → State → Option (BitVec 5 × Int)
  | .aadd d a b, s => some (d, (s.a a).toInt + (s.a b).toInt)
  | .asub d a b, s => some (d, (s.a a).toInt - (s.a b).toInt)
  | .aaddi d a i, s => some (d, (s.a a).toInt + (s.imm32 i).toInt)
  | .ashli d a i, s => some (d, shiftLeft (s.a a).toNat i.toNat)
  | .amuli d a i, s => some (d, (s.a a).toInt * (s.imm32 i).toInt)
  | .amovi d i, s => some (d, (s.imm32 i).toInt)
  | _, _ => none

/-- The effective address of formats ML and MS (R117). -/
def address (s : State) (m : MemOp) : Nat :=
  if m.post then (s.a m.base).toNat else ((((s.a m.base).toNat : Int) + m.off.toInt) % 2 ^ 64).toNat

/-- `n` bytes at `a` lie below 0x60_0000, aligned, in one valid region `r` (R17, R118). -/
def Inside (s : State) (r : Region) (a n al : Nat) : Prop :=
  s.me.regions.find? (fun x => decide (x.size ≠ 0 ∧ x.base ≤ a ∧ a < x.base + 4096 * x.size)) = some r ∧
    a + n ≤ r.base + 4096 * r.size ∧ a % al = 0

/-- Loads may read the KINDs other than spill, stores write those below spill that are not read-only (Table 1.4, R19). -/
def Loadable (r : Region) : Prop := r.kind ≤ 2 ∨ r.kind = 4
def Storable (r : Region) : Prop := r.kind ≤ 2 ∧ r.ro = false

/-- No word of the tile that is read has an uncorrected or a corrected error (R367, R373). -/
def NoErrors (s : State) : Prop := (s.tile (s.latch.core / 2)).errors = []

/-- The little-endian number of `n` bytes of the tile store, as the core's own reads see them (R127, R129). -/
def loaded (s : State) (a n : Nat) : Nat := ofBytes (s.storeBytes (s.latch.core / 2) a n)

/-- A scalar load: its bytes and whether it extends the sign (Table 5.2). -/
def scalarLoad? : Instr → Option (MemOp × Nat × Bool)
  | .ldb m => some (m, 1, true)
  | .ldbn m => some (m, 1, false)
  | .ldh m => some (m, 2, true)
  | .ldhn m => some (m, 2, false)
  | .ldw m => some (m, 4, true)
  | .ldwn m => some (m, 4, false)
  | .ldd m => some (m, 8, false)
  | _ => none

/-- A plain store: its bytes (Table 5.2, R125). -/
def plainStore? : Instr → Option (MemOp × Nat)
  | .stb m => some (m, 1)
  | .sth m => some (m, 2)
  | .stw m => some (m, 4)
  | .std m => some (m, 8)
  | .stv m => some (m, 64)
  | _ => none

/-- The register that FILE and REG name (R120). -/
def memTarget (s : State) (m : MemOp) : RegId :=
  match m.file with
  | .k => .k m.reg.toNat
  | .m => .a m.reg.toNat
  | .v => .v (s.me.regs.phys .v m.reg.toNat)
  | .w => .w (s.me.regs.phys .w m.reg.toNat)

/-- The value of the register that FILE and REG name, as a store reads it. -/
def memSource (s : State) (m : MemOp) : Vec :=
  match m.file with
  | .k => s.me.regs.get (.k m.reg.toNat)
  | .m => s.me.regs.get (.a m.reg.toNat)
  | .v => s.vec .v m.reg.toNat
  | .w => s.vec .w m.reg.toNat

/-- The flight of the base's post-update, if there is one (R117). -/
def baseFlight (s : State) (m : MemOp) : List Flight :=
  if m.post = true ∧ m.base ≠ 0 then [flight s 0 1 (.a m.base.toNat) (low64 (s.a m.base + m.off.signExtend 64))] else []

/-- `t` is `s` with a load's value in flight and the base's update before it; a load into k0 or a0 delivers nothing. -/
def LoadsInto (s t : State) (m : MemOp) (lat : Nat) (v : Vec) : Prop :=
  OnlyInFlight s t ∧ t.me.pending = s.me.pending ∧ t.latch = s.latch ∧
    Launches s t (baseFlight s m ++ if (memTarget s m).zero = true then [] else [flight s 1 lat (memTarget s m) v])

/-- `t` is `s` with a store on its way: its bytes are performed at issue + 4 (R127), nothing else but the base's update, the store
queue's perform cycle and the withheld items changes, and no byte of memory yet. -/
def StoresLater (s t : State) (m : MemOp) (bytes : List (Nat × Byte)) : Prop :=
  (∃ e ∈ t.agenda, e.at_ = s.now + 4 ∧ e.rank = rankStore ∧
    e.ev = .storePerform s.latch.core (s.me.segOpen.getD 0) bytes) ∧
  t.me.regs.flights = s.me.regs.flights ++ baseFlight s m ∧ s.now + 4 ≤ t.me.performs ∧ SameBytes s t ∧
  ∃ fs p hs ag n, t = { s with
    agenda := ag, order := n, latch := t.latch,
    cores := Table.set Core.idle s.cores s.latch.core
      { s.me with performs := p, held := s.me.held ++ hs, regs := { s.me.regs with flights := fs } } }

/-- Bytes at successive addresses. -/
def placed (a : Nat) (v : Vec) (n : Nat) : List (Nat × Byte) :=
  (List.range n).map fun i => (a + i, BitVec.ofNat 8 (v.toNat / 2 ^ (8 * i)))

/-- There is room to withhold `n` bytes more, or no segment is open (R249). -/
def RoomFor (s : State) (n : Nat) : Prop :=
  s.me.segOpen.getD 0 = 0 ∨ (s.me.held.foldl (fun k h => k + h.bytes) 0) + max n s.latch.need ≤ 262128

/-! ## Vector memory forms (R121-R125, R130-R132) -/

/-- The bytes that a view reads under a region's FMT (Table 5.3). -/
def viewSize : View → Nat → Option Nat
  | .raw, _ => some 64
  | .dec, f => if f ≤ 10 then some (2 * Fmt.width (Machine.codeFmt f)) else none
  | _, f => if f = 11 then some 16 else if f = 12 then some 32 else none

/-- A block view. -/
def isBlockView : View → Bool
  | .bf24 | .blo | .bhi => true
  | _ => false

/-- The lane width of a view's result and its lane `i` over the bytes `b` read (Table 5.3). -/
def viewLane (v : View) (f b i : Nat) : Nat :=
  match v with
  | .raw => b / 2 ^ (32 * i) % 2 ^ 32
  | .dec => (roundF .f32 .rne false 0 (decodeAny (Machine.codeFmt f) (b / 2 ^ (Fmt.width (Machine.codeFmt f) * i) % 2 ^ Fmt.width (Machine.codeFmt f)))).1
  | .bf24 => if i < 24 then blockLane .bf16 (codeBlk f) b i else 0
  | .blo => blockLane .f32 (codeBlk f) b i
  | .bhi => if i < 8 then blockLane .f32 (codeBlk f) b (16 + i) else 0

def viewWidth : View → Nat
  | .bf24 => 16
  | _ => 32

/-- Regions that a view may read: any loadable one raw, else one that is not code (R118). -/
def Viewable (v : View) (r : Region) : Prop := if v = .raw then Loadable r else r.kind ≤ 2

/-- The address of element `j` of a strided form: ea + j × stride, as two's complement words (R123). -/
def elementAt (s : State) (m : MemOp) (stride : BitVec 5) (j : Nat) : Nat := (s.ea m + BitVec.ofNat 64 j * s.a stride).toNat

/-- All 16 elements of `n` bytes lie aligned in region `r`, which holds element 0 (R123). -/
def StridedInside (s : State) (r : Region) (m : MemOp) (stride : BitVec 5) (n : Nat) : Prop :=
  Inside s r (elementAt s m stride 0) n n ∧
    ∀ j, j < 16 → r.base ≤ elementAt s m stride j ∧ elementAt s m stride j + n ≤ r.base + 4096 * r.size ∧
      elementAt s m stride j % n = 0

/-- The bytes of an element of LDVS (R123). -/
def elementSize (v : View) (f : Nat) : Nat := if v = .dec then Fmt.width (Machine.codeFmt f) / 8 else 4

/-- The physical register that a SPILL or FILL names (R131, R132). -/
def spillName (s : State) (f : VFile) (reg : BitVec 10) : Nat := s.me.regs.phys f reg.toNat

/-- The entries of the spill map but for a register's own. -/
def otherSpills (s : State) (f : VFile) (n : Nat) : List ParkEntry :=
  s.me.regs.spills.filter fun e => !decide (e.file = f ∧ e.reg = n)

/-- The spill map of `t` holds one entry for the register, at `p`, and the other entries of `s`. -/
def Parks (s t : State) (f : VFile) (n : Nat) (p : ParkPlace) : Prop :=
  t.me.regs.spills = otherSpills s f n ++ [{ file := f, reg := n, place := p }]

/-! ## Control (R95-R114) -/

/-- A relative target: OFF24 halfwords from a position of the index area with bit 31 clear, twice as many bytes in the tile store
with bit 31 set (R95). -/
def relative (a : CodeAddr) (off : BitVec 24) : CodeAddr :=
  if a.getLsbD 31 = true then BitVec.ofInt 32 (2 ^ 31 + (a.toNat + 2 * off.toInt) % 2 ^ 31)
  else BitVec.ofInt 32 ((a.toNat + off.toInt) % 2 ^ 31)

/-- The bundle is not the shadow of a taken transfer. -/
def NoShadow (s : State) : Prop := s.latch.shadow = none

/-- The innermost levels of the issuing core. -/
def depth (s : State) : Nat := s.me.regs.loops.length

/-- What a CSR that a program may write reads after the write of `v` (Table 1.8, R108). -/
def csrStored (r : Regs) (n : Nat) (v : Word) : Option Word :=
  match n with
  | 0x020 => some (BitVec.ofNat 64 (v.toNat / 2 ^ 8 % 4 * 2 ^ 8 + if v.toNat % 8 ≤ 4 then v.toNat % 8 else r.fmode.toNat % 8))
  | 0x021 => some (BitVec.ofNat 64 (v.toNat % 2 ^ 5))
  | 0x022 => some v
  | 0x023 => some v
  | 0x024 => some (BitVec.ofNat 64 (v.toNat / 2 ^ 8 % 16 * 2 ^ 8 + v.toNat % 16))
  | 0x030 => some (BitVec.ofNat 64 (if r.rotv = 0 then 0 else v.toNat % 2 ^ 9 % (8 * r.rotv)))
  | 0x031 => some (BitVec.ofNat 64 (if r.rotw = 0 then 0 else v.toNat % 2 ^ 9 % (8 * r.rotw)))
  | 0x032 => some (BitVec.ofNat 64 (r.p.toNat / 2 ^ 8 * 2 ^ 32 + min (v.toNat / 2 ^ 16 % 2 ^ 7) 64 * 2 ^ 16 + min (v.toNat % 2 ^ 7) 64))
  | 0x033 => some (BitVec.ofNat 64 (v.toNat % 2 ^ 16))
  | 0x040 => some (BitVec.ofNat 64 (v.toNat % 2))
  | 0x041 => some (BitVec.ofNat 64 (v.toNat % 2))
  | 0x042 => some (BitVec.ofNat 64 (v.toNat % 2 ^ 16))
  | 0x050 => some (BitVec.ofNat 64 (v.toNat % 2 ^ 8))
  | 0x051 => some v
  | 0x052 => some v
  | 0x053 => some v
  | 0x054 => some (BitVec.ofNat 64 (v.toNat % 2 ^ 32))
  | _ => none

/-- A ring base in a region of `rot` units of eight registers (R30). -/
def ringAt (rot n : Nat) : Nat := if rot = 0 then 0 else n % (8 * rot)

/-- The CSRs of Table 1.7. -/
def InTable17 (n : Nat) : Prop :=
  n ∈ [0x000, 0x001, 0x002, 0x003, 0x004, 0x010, 0x011, 0x012, 0x013, 0x014, 0x015, 0x020, 0x021, 0x022, 0x023, 0x024, 0x030, 0x031,
    0x032, 0x033, 0x040, 0x041, 0x042, 0x050, 0x051, 0x052, 0x053, 0x054, 0x055, 0x056, 0x060, 0x061, 0x070, 0x071, 0x080] ∨
  0x100 ≤ n ∧ n ≤ 0x13F

/-- The new value of a CSR write form from the old one and the source (R108). -/
def csrNew? : Instr → State → Option (BitVec 5 × BitVec 12 × (Word → Word))
  | .csrw d a n imm, s => some (d, n, fun _ => s.k a ||| imm.setWidth 64)
  | .csrs d a n imm, s => some (d, n, fun old => old ||| (s.k a ||| imm.setWidth 64))
  | .csrc d a n imm, s => some (d, n, fun old => old &&& ~~~(s.k a ||| imm.setWidth 64))
  | _, _ => none

/-- Everything of a core but its trap state, what a trap saves and where it goes on. -/
def sameRegisters (x y : Regs) : Prop :=
  x.k = y.k ∧ x.a = y.a ∧ x.x = y.x ∧ x.v = y.v ∧ x.w = y.w ∧ x.p = y.p ∧ x.loops = y.loops ∧ x.fmode = y.fmode ∧
    x.fflags = y.fflags ∧ x.seed = y.seed ∧ x.rngctr = y.rngctr ∧ x.blkdelta = y.blkdelta ∧ x.rrbv = y.rrbv ∧ x.rrbw = y.rrbw ∧
    x.rotv = y.rotv ∧ x.rotw = y.rotw ∧ x.epicnt = y.epicnt ∧ x.chken = y.chken ∧ x.strict = y.strict ∧ x.slipmax = y.slipmax ∧
    x.flights = y.flights ∧ x.spills = y.spills

/-- The trap state of a trap `t` taken at address `a` (R349). -/
def TrapState (r : Regs) (a : CodeAddr) (t : TrapInfo) : Prop :=
  r.tcause = BitVec.ofNat 8 t.cause ∧ r.tpc = a ∧ r.tinfo0 = BitVec.ofNat 64 t.t0 ∧ r.tinfo1 = BitVec.ofNat 64 t.t1 ∧
    r.tinfo2 = BitVec.ofNat 64 t.t2 ∧ r.imp = t.imp

/-! ## Time, locks and phasers (R175-R190, R228-R232) -/

/-- The cycles by which SLEEPT to tick `t` holds issue: none where the next cycle has it or a later one, else until the cycle that has it
under the correction that has begun (R188, R411). -/
def sleepCycles (s : State) (t : Nat) : Nat :=
  if t ≤ s.tick.toNat + 1 then 0
  else if s.tickOn = true then ((t : Int) - s.tickOff - s.adj).toNat - s.now - 1
  else t - s.tick.toNat - 1

/-- The timebase runs, its correction is at most 8 and has begun, and its count fits its 64 bits by far (R186, R411). -/
structure SoundTime (s : State) : Prop where
  on_   : s.tickOn = true
  adj   : -8 ≤ s.adj ∧ s.adj ≤ 8
  begun : s.adjAt ≤ s.now
  low   : 0 ≤ (s.adjAt : Int) + s.tickOff
  high  : (s.now : Int) + s.tickOff < 2 ^ 63

/-- Event `e` is due at cycle `at_` among those of a rank. -/
def Scheduled (t : State) (at_ rank : Nat) (e : Event) : Prop := ∃ v ∈ t.agenda, v.at_ = at_ ∧ v.rank = rank ∧ v.ev = e

/-- Only the latch, the agenda and core `c` may differ. -/
def OnlyCore (s t : State) (c : Nat) : Prop :=
  t = { s with latch := t.latch, agenda := t.agenda, order := t.order, cores := Table.set Core.idle s.cores c (t.core c) }

/-- Only the latch and the agenda may differ. -/
def OnlyLatch (s t : State) : Prop := t = { s with latch := t.latch, agenda := t.agenda, order := t.order }

/-- Only the agenda and tile `n` may differ. -/
def OnlyTile (s t : State) (n : Nat) : Prop :=
  t = { s with agenda := t.agenda, order := t.order, tiles := Table.set Tile.idle s.tiles n (t.tile n) }

/-- Only the agenda, core `c` and tile `n` may differ. -/
def OnlyHere (s t : State) (c n : Nat) : Prop :=
  t = { s with agenda := t.agenda, order := t.order, cores := Table.set Core.idle s.cores c (t.core c),
               tiles := Table.set Tile.idle s.tiles n (t.tile n) }

/-- A tile's memories and tables are in canonical form. -/
structure TileOk (x : Tile) : Prop where
  store   : Memory.wf x.store = true
  om      : Memory.wf x.om = true
  acc0    : Memory.wf x.acc0 = true
  acc1    : Memory.wf x.acc1 = true
  slots   : Table.wf SlotState.free x.slots = true
  engines : Table.wf Engine.reset x.engines = true
  chans   : Table.wf Chan.reset x.chans = true
  quays   : Table.wf QuayQueue.reset x.quays = true
  tokens  : Table.wf [] x.tokens = true
  merges  : ∀ n, Table.wf [] (Table.get Chan.reset x.chans n).merges = true
  opts    : Table.wf OptChan.reset x.opts = true
  wrote   : Table.wf 0 x.wroteAt = true

/-- A partition's phasers, with their members and arrivals, are in canonical form. -/
structure PartOk (p : Part) : Prop where
  phasers  : Table.wf Phaser.reset p.phasers = true
  members  : ∀ n, Table.wf Member.none (Table.get Phaser.reset p.phasers n).members = true
  arrivals : ∀ n, Table.wf none (Table.get Phaser.reset p.phasers n).arrivals = true

/-- A core's register tables are in canonical form. -/
structure RegsOk (r : Regs) : Prop where
  k : Table.wf 0 r.k = true
  a : Table.wf 0 r.a = true
  x : Table.wf 0 r.x = true
  v : Table.wf 0 r.v = true
  w : Table.wf 0 r.w = true

/-- So are those of the snapshots that a core keeps, and of the bundle issued last. -/
structure CoreOk (x : Core) : Prop where
  regs  : RegsOk x.regs
  snaps : ∀ e ∈ x.snaps, RegsOk e.2.regs
  rel   : ∀ n, x.relSnap = some n → RegsOk n.regs
  last  : ∀ u, x.before = some u → RegsOk u.regs

/-- The machine's memories and tables are in canonical form: keys rise strictly, and none lists what an unlisted key reads as. -/
structure Whole (s : State) : Prop where
  cores   : Table.wf Core.idle s.cores = true
  tiles   : Table.wf Tile.idle s.tiles = true
  parts   : Table.wf Machine.Part.none s.parts = true
  queues  : Table.wf Queue.reset s.queues = true
  links   : Table.wf 0 s.links = true
  mreds   : Table.wf Mred.none s.mreds = true
  handles : Table.wf Handle.reset s.handles = true
  colls   : Table.wf Coll.none s.colls = true
  tokens  : Table.wf 0 s.tokens = true
  pages   : Table.wf 0 s.pages = true
  tlbs    : Table.wf Tlb.reset s.tlbs = true
  hregs   : Table.wf 0 s.handleRegs = true
  mgmt    : Table.wf 0 s.mgmt = true
  shifts  : Table.wf Option.none s.shifts = true
  zones   : Table.wf Option.none s.zones = true
  masks   : Table.wf 0 s.deadMask = true
  rows    : Table.wf 5 s.spareRow = true
  ports   : Table.wf Port.reset s.ports = true
  waiting : Table.wf 0 s.waiting = true
  hbusy   : Table.wf 0 s.handleBusy = true
  busy    : Table.wf 0 s.cardBusy = true
  retries : Table.wf 0 s.cardRetries = true
  inUse   : Table.wf 0 s.rowSpares = true
  cards   : Table.wf 0 s.cardSpares = true
  late    : Table.wf 0 s.lateDead = true
  tier    : Memory.wf s.tier = true
  hostMem : Memory.wf s.hostMem = true
  tile    : ∀ n, TileOk (s.tile n)
  part    : ∀ n, PartOk (s.part n)
  core    : ∀ n, CoreOk (s.core n)

/-- A core's ring bases lie in their regions, of at most 64 units each, and its loop stack holds at most six levels (R27, R29, R30). -/
structure RingOk (r : Regs) : Prop where
  v     : r.rotv = 0 ∧ r.rrbv = 0 ∨ r.rrbv < 8 * r.rotv ∧ r.rotv ≤ 64
  w     : r.rotw = 0 ∧ r.rrbw = 0 ∨ r.rrbw < 8 * r.rotw ∧ r.rotw ≤ 64
  depth : r.loops.length ≤ 6

/-- What a lead tells a member of its gang about loops fits the stack. -/
def FitsLoops (f : Option Follow) : Prop := ∀ a kg ls o link t, f = some (.run a kg ls o link t) → ls.length ≤ 6

/-- So does every core, every snapshot of one, what a bundle is about to push, and what members are told. -/
structure Ringed (s : State) : Prop where
  core  : ∀ n, RingOk (s.core n).regs
  snaps : ∀ n, ∀ e ∈ (s.core n).snaps, RingOk e.2.regs
  rel   : ∀ n x, (s.core n).relSnap = some x → RingOk x.regs
  last  : ∀ n u, (s.core n).before = some u → RingOk u.regs
  push  : s.latch.active = true → ∀ l, s.latch.loops = .push l → s.me.regs.loops.length < 6
  lead  : FitsLoops s.latch.follow
  told  : ∀ v ∈ s.agenda, ∀ c g f, v.ev = .bundleIssue c g f → FitsLoops f

/-- The bundle is issuing on a machine in canonical form. -/
structure Live (s : State) : Prop where
  active : s.latch.active = true
  whole  : Whole s

/-- The vote, flags and bound of a LOCK form (R179, R180). -/
def lockOf? : Instr → State → Option (Vote × Bool × Bool × BitVec 18)
  | .lock round win b, _ => some (.none, round, win, b)
  | .lockAnd p round win b, s => some (.and (s.p p), round, win, b)
  | .lockOr p round win b, s => some (.or (s.p p), round, win, b)
  | _, _ => none

/-- The mode that a PREG names (R229). -/
def pregMode? : Instr → Option (BitVec 6 × PhMode)
  | .pregSw ph => some (ph, .sw)
  | .pregSo ph => some (ph, .so)
  | .pregWo ph => some (ph, .wo)
  | _ => none

/-- The registration of the issuing core with a phaser of its partition, and the phaser. -/
def phaserOf (s : State) (pid : Nat) (ph : BitVec 6) : Phaser := s.phaser pid ph.toNat
def memberOf (s : State) (pid : Nat) (ph : BitVec 6) : Member := Table.get Member.none (phaserOf s pid ph).members s.latch.core

/-- A member that signals: SW or SO (R175). -/
def Signals (m : Member) : Prop := m.mode = some .sw ∨ m.mode = some .so

/-- The member itself still signals: what its own forms go by until it has observed the release that changes its mode (R175, R230). -/
def SeesItSignal (m : Member) : Prop := m.view = some .sw ∨ m.view = some .so

/-- The member has arrived in an epoch whose release it has not observed. -/
def HasArrived (m : Member) : Prop := m.seen < m.arr

/-- The core, a member or one that the last release makes a member, has yet to observe that release (R230). -/
def Lags (s : State) (pid : Nat) (ph : BitVec 6) : Prop :=
  ((memberOf s pid ph).mode ≠ none ∨ (memberOf s pid ph).view ≠ none) ∧ (memberOf s pid ph).seen < (phaserOf s pid ph).epoch

/-- The core is no member and the phaser counts none, so that PREG acts at once (R230). -/
def Unjoined (s : State) (pid : Nat) (ph : BitVec 6) : Prop :=
  (memberOf s pid ph).mode = none ∧ (memberOf s pid ph).view = none ∧ ∀ e ∈ (phaserOf s pid ph).members, ¬ Signals e.2

/-- The phaser may be named: ph0, or its bit of PHMASK is set (R228). -/
def Usable (s : State) (ph : BitVec 6) : Prop := ph = 0 ∨ (s.partOf s.latch.core).hdr.phmask.getLsbD ph.toNat = true

/-- `t` is `s` with the issuing core's registration changed to `m`. -/
def Registered (s t : State) (pid : Nat) (ph : BitVec 6) (m : Member) : Prop :=
  t = s.setPhaser pid ph.toNat
    { phaserOf s pid ph with members := Table.set Member.none (phaserOf s pid ph).members s.latch.core m }

/-- The forms of the M, V and W slots that an exchange phase leaves illegal, in program mode (R115, R135). -/
def NotInExchange (s : State) : Prop := s.me.phase % 2 = 1 ∧ s.me.hm = false

/-- A wait of the running form in slot number `slot`, for `w`. -/
def waitOf (s : State) (slot bound : Nat) (l : Option Nat) (w : WaitFor) : Wait :=
  { slot := slot, word := s.latch.word, issued := s.now, limit := l, bound := bound, what := w, again := false }

/-- The cycle at which a wait traps that may last 16 × BOUND cycles beyond a minimum from its issue on (R181, R185). -/
def limitAfter (s : State) (minimum bound : Nat) : Option Nat := some (s.now + minimum + 16 * bound + 1)

/-- `t` is `s` with the running form's wait asked for in its latch, to trap at `l`. -/
def Holds (s t : State) (slot bound : Nat) (l : Option Nat) (w : WaitFor) : Prop :=
  t.latch = { s.latch with waits := s.latch.waits ++ [waitOf s slot bound l w] }

/-! ## Channels and trees (R207-R227) -/

/-- The trap record of a cause with all three details. -/
def TrappedWith (i : Instr) (s : State) (cause a b c : Nat) : Prop :=
  exec i s = .next (s.trapNow { cause := cause, t0 := a, t1 := b, t2 := c, imp := false })

/-- The 128-bit route entry that a channel form names, on the issuing tile (R207). -/
def entryOf (s : State) (ch : BitVec 8) : Nat := s.route (s.latch.core / 2) ch.toNat

/-- The entry is the issuing core's: any of them outside split mode, entries 0-127 or 128-255 in it (R207). The tile's two cores
agree on the mode. -/
def OwnEntry (s : State) (ch : BitVec 8) : Prop :=
  s.me.split = false ∨ (s.core (s.latch.core / 2 * 2)).split = true ∧ (ch.toNat < 128 ↔ s.latch.core % 2 = 0)

/-- What the entry counts in the phase. -/
def countOf (s : State) (ch : BitVec 8) : Chan := s.chan (s.latch.core / 2) ch.toNat

/-- The partition of the issuing core. -/
def ownPart (s : State) : Part := s.partOf s.latch.core

/-- The flits that x(S) asks for: COUNT, or LEN where COUNT is 0 (R224, R226). -/
def flits (s : State) (ch : BitVec 8) (xs : BitVec 4) : Nat :=
  if (s.x xs).toNat / 2 ^ 32 % 2 ^ 16 = 0 then routeLen (entryOf s ch) else (s.x xs).toNat / 2 ^ 32 % 2 ^ 16

/-- The flits written to the entry before the present cycle (R217). -/
def arrivedFlits (s : State) (ch : BitVec 8) : Nat :=
  if (countOf s ch).lastAt = s.now then (countOf s ch).arr - (countOf s ch).lastN else (countOf s ch).arr

/-- The source of a channel form: `n` flits at src(x), 128-byte aligned, in one region of KIND plain, lading or receive (R224). -/
def SourceFits (s : State) (src n : Nat) : Prop := ∃ r, Inside s r src (128 * n) 128 ∧ r.kind ≤ 2

/-- An exchange phase (R171). -/
def Exchanges (s : State) : Prop := s.me.phase % 2 = 1

/-- The SENDR forms by their ROP (Table 10.2). -/
def sendr? : Instr → Option (Nat × BitVec 8 × BitVec 4)
  | .sendrAddF32 ch xs _ => some (0, ch, xs)
  | .sendrAddBf16 ch xs _ => some (1, ch, xs)
  | .sendrMaxF32 ch xs _ => some (2, ch, xs)
  | .sendrMinF32 ch xs _ => some (3, ch, xs)
  | .sendrAddI32 ch xs _ => some (4, ch, xs)
  | .sendrXor ch xs _ => some (5, ch, xs)
  | _ => none

/-- The root's entry of the tree that an entry belongs to, and whether the entry receives the tree's result: the root's own, or a
member's under a root with DOWN (R210, R218). -/
def rootEntry (s : State) (ch : BitVec 8) : Nat :=
  s.route (s.treeRoot (ownPart s) treeFuel (s.latch.core / 2) ch.toNat).1 (s.treeRoot (ownPart s) treeFuel (s.latch.core / 2) ch.toNat).2
def ReceivesTree (s : State) (ch : BitVec 8) : Prop :=
  routeMode (entryOf s ch) = 4 ∨ routeMode (entryOf s ch) = 3 ∧ routeDown (rootEntry s ch) = true

/-- An entry of the other core of a split tile, the two cores of which agree on the mode (R207). -/
def OtherEntry (s : State) (ch : BitVec 8) : Prop :=
  s.me.split = true ∧ (s.core (s.latch.core / 2 * 2)).split = true ∧ ¬ (ch.toNat < 128 ↔ s.latch.core % 2 = 0)

/-- The channel forms on entries: the entry that each names, and whether its MODE and ROP suit the form (R223, Table 10.2). -/
def channelForm? (i : Instr) (s : State) : Option (BitVec 8 × Prop) :=
  match i with
  | .send ch _ _ => some (ch, routeMode (entryOf s ch) = 1)
  | .recv ch _ _ => some (ch, routeMode (entryOf s ch) = 2)
  | .recvr ch _ _ => some (ch, ReceivesTree s ch)
  | .chst ch _ => some (ch, 1 ≤ routeMode (entryOf s ch) ∧ routeMode (entryOf s ch) ≤ 4)
  | j => (sendr? j).map fun e =>
      (e.2.1, (routeMode (entryOf s e.2.1) = 3 ∨ routeMode (entryOf s e.2.1) = 4) ∧ routeRop (entryOf s e.2.1) = e.1)

/-- A SEND of `n` flits from `src` to offset `off` executes normally (R224): its own mode-1 entry, an exchange phase, flits within LEN from
a source range that may be read, and no more of them than the window ever holds. -/
structure SendSound (s : State) (ch : BitVec 8) (src n off : Nat) : Prop where
  own    : OwnEntry s ch
  mode   : routeMode (entryOf s ch) = 1
  phase  : Exchanges s
  length : off + n ≤ routeLen (entryOf s ch)
  source : SourceFits s src n
  window : n ≤ routeWin (entryOf s ch)

/-- A SENDR executes normally (R225): its own entry of the tree with the entry's ROP, in an exchange phase in which it has not contributed,
from a source range that may be read. -/
structure SendrSound (s : State) (rop : Nat) (ch : BitVec 8) (src : Nat) : Prop where
  own    : OwnEntry s ch
  mode   : routeMode (entryOf s ch) = 3 ∨ routeMode (entryOf s ch) = 4
  rop    : routeRop (entryOf s ch) = rop
  phase  : Exchanges s
  source : SourceFits s src (routeLen (entryOf s ch))

/-- A RECV or RECVR asks for flits of its own entry, at most LEN, in an exchange phase (R226). -/
structure NeedSound (s : State) (ch : BitVec 8) (xs : BitVec 4) : Prop where
  own    : OwnEntry s ch
  phase  : Exchanges s
  length : flits s ch xs ≤ routeLen (entryOf s ch)

/-- Only tiles, cores and the agenda differ, the cores in their tile-store overlays alone, and no register changes. -/
def OnlyTiles (s t : State) : Prop :=
  t = { s with agenda := t.agenda, order := t.order, tiles := t.tiles, cores := t.cores } ∧
    ∀ c, t.core c = { s.core c with overlay := (t.core c).overlay }

/-- In `t` the `k` bytes of tile `n`'s store at `a` are those of `v`, low byte first, and every other byte of every memory reads
as in `s`. -/
def StoreGets (s t : State) (n a k v : Nat) : Prop :=
  (∀ m b, Memory.read (t.tile m).store b =
    if m = n ∧ a ≤ b ∧ b < a + k then BitVec.ofNat 8 (v / 2 ^ (8 * (b - a))) else Memory.read (s.tile m).store b) ∧
  (∀ m b, Memory.read (t.tile m).om b = Memory.read (s.tile m).om b ∧ Memory.read (t.tile m).acc0 b = Memory.read (s.tile m).acc0 b ∧
    Memory.read (t.tile m).acc1 b = Memory.read (s.tile m).acc1 b) ∧
  (∀ b, Memory.read t.tier b = Memory.read s.tier b) ∧ ∀ b, Memory.read t.hostMem b = Memory.read s.hostMem b

/-- No move touches the tiles at the ends of a flit's path (R379). -/
def Settled (s : State) (f : Flit) : Prop := (s.tile f.dest).move = .still ∧ (s.tile f.src).move = .still

/-- The link of a hop takes a flit at the present cycle already; 16 flits have their places in the input port ahead of it (R216). -/
def LinkTaken (s : State) (h : Hop) : Prop := Table.get 0 s.links (linkOf h) = s.now + 1
def aheadOf (h : Hop) : Nat := portKey (neighbour h.tile h.dir) (facing h.dir)
def FullAhead (s : State) (h : Hop) : Prop := 16 ≤ Table.get 0 s.waiting (aheadOf h)

/-- A flit before `f` in the order of R216 has still to contend for the link of hop `h` at the present cycle. -/
def Contended (s : State) (f : Flit) (h : Hop) : Prop :=
  ∃ v ∈ s.agenda, v.at_ = s.now ∧ ∃ (g : Flit) (k : Hop) (l : List Hop), v.ev = .flitLinkEntry g ∧ g.data ≠ none ∧ g.hops = k :: l ∧
    linkOf k = linkOf h ∧ flitKey g < flitKey f

/-- A tile has no latent error (R367, R373). -/
def Clean (s : State) (n : Nat) : Prop := (s.tile n).errors = []

/-- What the end of a flit's last link brings about, and when among the steps of its cycle: its write, the next merge, or a
result's write. -/
def atEnd (f : Flit) : Event :=
  match f.kind with
  | .fragment => .flitWrite f
  | .up => .treeMerge f.dest f.entry f.k (some (f.port % 8, f.data.getD 0))
  | .down => .treeResultWrite f

def endRank (f : Flit) : Nat := match f.kind with
  | .up => rankSample
  | _ => rankChannel

/-! ## Stream engines and the array (R293-R317) -/

/-- The engine is the issuing core's (Table 1.1). -/
def OwnEngine (s : State) (st : Nat) : Prop :=
  if s.me.split = true then (if s.me.coreNo = 0 then st < 4 else st = 4 ∨ st = 5) else st < 6

/-- The issuing core may use the array and the slots: core 1 of a split tile may not. -/
def OwnArray (s : State) : Prop := s.me.split = false ∨ s.me.coreNo ≠ 1

/-- No replay is under way, and the start log has an entry left where the form is logged (R359, R361, R371). -/
def Fresh (s : State) : Prop := s.me.replay = [] ∧ (s.me.split = true ∨ s.me.startLog.length < 1024)

/-- The engine of the issuing tile. -/
def engineOf (s : State) (e : Nat) : Engine := s.engine (s.latch.core / 2) e

/-- The issuing tile. -/
def mine (s : State) : Tile := s.tile (s.latch.core / 2)

/-- Only the issuing core and its tile, what the bundle has asked for and the agenda differ; of the core only what is withheld, the
start log and the writes in flight. -/
def OnlyUnit (s t : State) : Prop :=
  t = { s with latch := t.latch, agenda := t.agenda, order := t.order,
               cores := Table.set Core.idle s.cores s.latch.core t.me,
               tiles := Table.set Tile.idle s.tiles (s.latch.core / 2) (mine t) } ∧
  (∃ ws n, t.latch = { s.latch with waits := s.latch.waits ++ ws, need := n }) ∧
  ∃ hs es fs, t.me = { s.me with held := s.me.held ++ hs, startLog := s.me.startLog ++ es,
                                 regs := { s.me.regs with flights := s.me.regs.flights ++ fs } }

/-- The form issues without waiting. -/
def NoWait (s t : State) : Prop := t.latch.waits = s.latch.waits

/-- The new wait of the running form, in slot X, is for `w` and traps 16 × BOUND cycles beyond a minimum. -/
def WaitsFor (s t : State) (minimum bound : Nat) (w : WaitFor) : Prop :=
  t.latch.waits = s.latch.waits ++ [waitOf s 4 bound (limitAfter s minimum bound) w]

/-- The side's walk over the descriptor: level strides over the unit number, dimension 0 innermost, from its base (R295). -/
def unitVia (d : Desc) (fmt : Nat) (q : Nat → Nat) (dst : Bool) (n : Nat) : Int :=
  if d.pside = dst then
    (sideAddr d.pattern : Int) + (n % dimCount d.d0 : Nat) * dimStride d.d0 +
      (n / dimCount d.d0 % dimCount d.d1 : Nat) * dimStride d.d1 +
      (n / (dimCount d.d0 * dimCount d.d1) % dimCount d.d2 : Nat) * dimStride d.d2 +
      (q (n / (dimCount d.d0 * dimCount d.d1 * dimCount d.d2)) : Nat) * dimStride d.d3
  else (sideAddr d.packed : Int) + n * d.packedUnit fmt

/-- A unit's place where no index moves it. -/
def unitAt (d : Desc) (fmt : Nat) (dst : Bool) (n : Nat) : Int := unitVia d fmt id dst n

/-- The form that SBIND or SGO is checked as (R296). -/
def streamAsked (s : State) (st : BitVec 3) (bind : Option (VFile × Nat × Bool)) : StreamCheck :=
  s.streamCheck st (if bind = none then 0x34 else 0x31) bind

/-- The bytes of a unit at a side, and whether the unit's places there are known at issue: only an index moves the pattern side (R295, R302). -/
def unitSize (d : Desc) (fmt : Nat) (dst : Bool) : Nat := if dst = true then d.dstUnit fmt else d.srcUnit fmt
def Known (d : Desc) (dst : Bool) : Prop := d.ix = false ∨ d.pside ≠ dst ∨ dimStride d.d3 = 0

/-- A region takes the reads or the writes of a stream (R296). -/
def StreamRegion (r : Region) (dst dec : Bool) : Prop :=
  r.kind ≤ 2 ∧ (dst = true → r.ro = false) ∨ dst = false ∧ dec = false ∧ r.kind = 4

/-- A byte range lies in the region that holds its first byte. -/
def Within (r : Region) (a : Int) (n : Nat) : Prop := (r.base : Int) ≤ a ∧ a < r.base + 4096 * r.size ∧ a + n ≤ r.base + 4096 * r.size

/-- A side of a descriptor is sound (R296, Tables 14.1 and 14.2): its KIND exists and suits its place, its slot is claimed and belongs to the
core, and each unit whose place is known lies aligned inside the slot, inside one region that permits the access, or inside the
bank. -/
structure SideSound (s : State) (d : Desc) (fmt : Nat) (dst : Bool) : Prop where
  kind  : sideKind (d.side dst) ≤ 3 ∧ (dst = true → sideKind (d.side dst) ≠ 2)
  plain : sideKind (d.side dst) ≠ 1 → sideSlot (d.side dst) = 0
  core  : sideKind (d.side dst) = 1 ∨ sideKind (d.side dst) = 2 → OwnArray s
  slot  : sideKind (d.side dst) = 1 → sideSlot (d.side dst) < 32 ∧ (mine s).claims (sideSlot (d.side dst)) = true ∧
    (Known d dst → ∀ n, n < d.units → 0 ≤ unitAt d fmt dst n ∧ unitAt d fmt dst n + unitSize d fmt dst ≤ 49152)
  store : sideKind (d.side dst) = 0 → Known d dst → ∀ n, n < d.units → 0 ≤ unitAt d fmt dst 0 ∧ 0 ≤ unitAt d fmt dst n ∧
    (∃ r, regionOf s.me.regions (unitAt d fmt dst 0).toNat = some r ∧ StreamRegion r dst d.dec ∧
      Within r (unitAt d fmt dst n) (unitSize d fmt dst)) ∧
    unitAt d fmt dst n % unitBytes ((s.fmtAt (unitAt d fmt dst n).toNat).getD 0) = 0 ∧
    unitSize d fmt dst % unitBytes ((s.fmtAt (unitAt d fmt dst n).toNat).getD 0) = 0
  moved : sideKind (d.side dst) = 0 → ¬ Known d dst → d.units ≠ 0 → unitSize d fmt dst % unitBytes fmt = 0
  bank  : sideKind (d.side dst) = 2 → Known d dst → ∀ n, n < d.units → 0 ≤ unitAt d fmt dst n ∧
    unitAt d fmt dst n + unitSize d fmt dst ≤ 262144 ∧ unitAt d fmt dst n % 4 = 0

/-- SGO, or SBIND to a register, executes normally on an engine (R296): the engine is free, no engine is bound to the register, and the
descriptor is sound. -/
structure StreamSound (s : State) (st : BitVec 3) (bind : Option (VFile × Nat × Bool)) (d : Desc) (fmt : Nat) : Prop where
  ofEngine : d = (engineOf s st.toNat).desc
  ofSource : fmt = s.streamFmt d
  reserved : ∀ n, n < 8 → (d.field n).toNat &&& Desc.reservedBits n = 0
  src      : SideSound s d fmt false
  dst      : SideSound s d fmt true
  window   : match bind with
    | none => sideKind d.src ≠ 3 ∧ sideKind d.dst ≠ 3
    | some (_, _, true) => sideKind d.dst ≠ 3 ∧ sideKind d.src = 3
    | some (_, _, false) => sideKind d.src ≠ 3 ∧ sideKind d.dst = 3
  pattern  : sideKind d.pattern ≠ 3
  decode   : d.dec = true → sideKind d.src = 0 ∧ d.esz = 0 ∧ (sideKind d.dst = 0 → (s.fmtAt (sideAddr d.dst)).getD 0 = 0)
  same     : d.dec = false → sideKind d.src = 0 → sideKind d.dst = 0 → s.fmtAt (sideAddr d.src) = s.fmtAt (sideAddr d.dst)
  index    : d.ix = true → d.ibase % 4 = 0 ∧ (d.units ≠ 0 → ∀ j, j < dimCount d.d3 → ∃ r,
    regionOf s.me.regions d.ibase = some r ∧ StreamRegion r false false ∧ Within r ((d.ibase + 4 * j : Nat) : Int) 4)
  free     : (engineOf s st.toNat).busy = false ∧ (engineOf s st.toNat).isBound = false
  register : ∀ f n out, bind = some (f, n, out) → s.bound s.latch.core (vecId f n) = none

/-- An engine's transfers have different numbers, and of those before the newest none holds a register. -/
structure EngineOk (g : Engine) : Prop where
  newest : ∀ x, g.xfer = some x → ∀ y ∈ g.past, y.id ≠ x.id
  past   : (g.past.map fun y => y.id).Nodup
  bound  : ∀ y ∈ g.past, y.bind = .sgo ∨ y.unbound = true ∨ y.masked = true

/-- A side of a transfer: kind 0 is the tile store, kind 1 an operand-memory slot of 49152 bytes, kind 2 the visible bank. -/
def sideReads (s : State) (n : Nat) (w : Word) (a : Nat) : Byte :=
  if sideKind w = 0 then s.storeByte n a
  else if sideKind w = 1 then Memory.read (s.tile n).om (sideSlot w * 49152 + a)
  else Memory.read (if (s.tile n).array.vis = true then (s.tile n).acc1 else (s.tile n).acc0) a

/-- The units that beat `b` carries: those of its packed bytes, 64 or what is left (R297). -/
def packedIn (x : Transfer) (b : Nat) : Nat := min 64 (x.desc.packedBytes x.fmt - 64 * b)
def unitOf (x : Transfer) (b i : Nat) : Nat := (64 * b + i) / x.desc.packedUnit x.fmt
def CarriedBy (x : Transfer) (b m : Nat) : Prop := ∃ i, i < packedIn x b ∧ m = unitOf x b i

/-- j3 of a unit, and the word of the index list that stands for it, once sampled, under IX (R295). -/
def level3 (d : Desc) (m : Nat) : Nat := m / (dimCount d.d0 * dimCount d.d1 * dimCount d.d2)
def wordUsed (x : Transfer) (j : Nat) : Nat := if x.desc.ix = true then Table.get 0 x.index (16 * j + 15) else j
def HasWord (x : Transfer) (j : Nat) : Prop := ∃ e ∈ x.index, e.1 = 16 * j + 15

/-- A unit's place in a running transfer. -/
def placeOf (x : Transfer) (dst : Bool) (m : Nat) : Int := unitVia x.desc x.fmt (wordUsed x) dst m

/-- `y` is `x` once beat `b` has the words that its units use: those in use before; under PSIDE the words of the list now; else those sampled
four cycles ago (R297). -/
def Indexed (s : State) (n b : Nat) (x y : Transfer) : Prop :=
  y = { x with index := y.index } ∧ (x.desc.ix = false → y = x) ∧
    (x.desc.ix = true → ∀ m, CarriedBy x b m →
      (HasWord x (level3 x.desc m) → wordUsed y (level3 x.desc m) = wordUsed x (level3 x.desc m)) ∧
      (¬ HasWord x (level3 x.desc m) → wordUsed y (level3 x.desc m) =
        if x.desc.pside = true then ofBytes ((List.range 4).map fun i => s.storeByte n (x.desc.ibase + 4 * level3 x.desc m + i))
        else Table.get 0 x.index (16 * level3 x.desc m + (s.now - 4) % 8)))

/-- A unit that an index has moved passes the tests of R302: its region takes the access, aligned, with the FMT fixed at issue, or it lies in
its slot or bank. -/
def UnitFits (s : State) (x : Transfer) (dst : Bool) (m : Nat) : Prop :=
  if sideKind (x.desc.side dst) = 0 then
    0 ≤ placeOf x dst m ∧ ∃ r, regionOf (s.core x.core).regions (placeOf x dst m).toNat = some r ∧ StreamRegion r dst x.desc.dec ∧
      Within r (placeOf x dst m) (unitSize x.desc x.fmt dst) ∧ placeOf x dst m % unitBytes r.fmt = 0 ∧
      r.fmt = if x.desc.dec = true ∧ dst = true then 0 else x.fmt
  else if sideKind (x.desc.side dst) = 1 then 0 ≤ placeOf x dst m ∧ placeOf x dst m + unitSize x.desc x.fmt dst ≤ 49152
  else 0 ≤ placeOf x dst m ∧ placeOf x dst m + unitSize x.desc x.fmt dst ≤ 262144 ∧ placeOf x dst m % 4 = 0

/-- So does every unit of a beat that an index moves. -/
def BeatFits (s : State) (x : Transfer) (dst : Bool) (b : Nat) : Prop := ¬ Known x.desc dst → ∀ m, CarriedBy x b m → UnitFits s x dst m

/-- An element or a block as a decoding transfer delivers it: the f32 values of its lanes, low lane first (R295). -/
def decodedBytes (fmt : Nat) (bytes : List Byte) : List Byte :=
  if fmt = 11 ∨ fmt = 12 then (List.range 24).flatMap fun i => toBytes (blockLane .f32 (codeBlk fmt) (ofBytes bytes) i) 4
  else toBytes (decodeLane (Machine.codeFmt fmt) (ofBytes bytes)) 4

/-- What a decoding beat delivers of a unit: it reads the unit whole, unless an earlier beat has (R297). -/
def decodedUnit (s : State) (n : Nat) (x : Transfer) (m : Nat) : List Byte :=
  match x.carry with
  | some (k, bs) => if k = m then bs else decodedBytes x.fmt ((List.range (unitSize x.desc x.fmt false)).map fun i =>
      sideReads s n x.desc.src ((placeOf x false m).toNat + i))
  | none => decodedBytes x.fmt ((List.range (unitSize x.desc x.fmt false)).map fun i =>
      sideReads s n x.desc.src ((placeOf x false m).toNat + i))

/-- The bytes of beat `b`: each with its unit and its offset there. -/
def beatOf (s : State) (n : Nat) (x : Transfer) (b : Nat) : List (Nat × Nat × Byte) :=
  (List.range (packedIn x b)).map fun i =>
    (unitOf x b i, (64 * b + i) % x.desc.packedUnit x.fmt,
      if x.desc.dec = true then (decodedUnit s n x (unitOf x b i)).getD ((64 * b + i) % x.desc.packedUnit x.fmt) 0
      else sideReads s n x.desc.src ((placeOf x false (unitOf x b i)).toNat + (64 * b + i) % x.desc.packedUnit x.fmt))

/-- Bytes at a destination of tile `n`: the tile store, or the operand-memory slot; every other byte of the tile is as before. -/
def DstGets (s t : State) (n : Nat) (w : Word) (bytes : List (Nat × Byte)) : Prop :=
  (sideKind w = 0 → (t.tile n).store = Memory.writeAll (s.tile n).store bytes ∧ (t.tile n).om = (s.tile n).om) ∧
  (sideKind w = 1 → (t.tile n).store = (s.tile n).store ∧
    (t.tile n).om = Memory.writeAll (s.tile n).om (bytes.map fun w' => (sideSlot w * 49152 + w'.1, w'.2))) ∧
  (t.tile n).acc0 = (s.tile n).acc0 ∧ (t.tile n).acc1 = (s.tile n).acc1 ∧ ∀ m, m ≠ n → t.tile m = s.tile m

/-- As `OnlyTiles`, but for the bytes that a core keeps of a bundle that a trap may still suppress (R140). -/
def OnlyTilesUndo (s t : State) : Prop :=
  t = { s with agenda := t.agenda, order := t.order, tiles := t.tiles, cores := t.cores } ∧
    ∀ c, t.core c = { s.core c with overlay := (t.core c).overlay, before := (t.core c).before } ∧
      ((s.core c).before = none → (t.core c).before = none) ∧
      ∀ u, (s.core c).before = some u → ∃ more, (t.core c).before = some { u with bytes := more ++ u.bytes }

/-- The transfer of an engine may go on with beat `b` of what it reads. -/
structure ReadsNext (s : State) (x : Transfer) (b : Nat) : Prop where
  sound : x.fault = false
  next  : x.read = b
  more  : b < x.beats
  bound : x.unbound = false
  live  : s.halted x.core = false

/-- The bits of MSTAT: what each of 0 to 46 says (Table 14.6). -/
def mstatBit (s : State) (i : Nat) : Prop :=
  if i < 32 then (mine s).claims i = true
  else if i < 38 then (Table.get Engine.reset (mine s).engines (i - 32)).busy = true
  else if i < 44 then (Table.get Engine.reset (mine s).engines (i - 38)).isBound = true
  else if i = 44 then (mine s).array.nests ≠ [] ∨ (mine s).array.clears ≠ []
  else if i = 45 then ∃ n ∈ (mine s).array.nests, s.now < n.start
  else i = 46 ∧ (mine s).array.vis = true

/-- The array of a tile. -/
def arrayOf (s : State) : ArrayUnit := (mine s).array

/-- A committed nest has not started. -/
def NestQueued (s : State) : Prop := ∃ n ∈ (arrayOf s).nests, s.now < n.start

/-- Nothing committed is unfinished. -/
def ArrayIdle (s : State) : Prop := (arrayOf s).nests = [] ∧ (arrayOf s).clears = []

/-- A step's fetch of `size` bytes at 16 × `off` of a slot lies inside a claimed slot (R310). -/
def FetchSound (s : State) (slot off : Int) (size : Nat) : Prop :=
  0 ≤ slot ∧ slot ≤ 31 ∧ (mine s).claims slot.toNat = true ∧ 0 ≤ off ∧ 16 * off + size ≤ 49152

/-- A shadow executes normally (R310, Tables 14.4 and 14.5): a listed pair of formats, no reserved bit, an existing OLEV, no transposed
block, edges from 1 to their bounds, and every step's output and operands inside the accumulators and their slots. -/
structure NestSound (s : State) (h : Shadow) : Prop where
  pair     : (pairOf (Shadow.afmt h) (Shadow.bfmt h)).isSome = true
  reserved : ∀ k ∈ shadowKeys, Shadow.word h k &&& shadowBits k = Shadow.word h k
  level    : Shadow.olev h ≤ 5
  trans    : (Shadow.ta h = true → isBlock (Shadow.afmt h) = false) ∧ (Shadow.tb h = true → isBlock (Shadow.bfmt h) = false)
  edges    : 1 ≤ Shadow.mv h ∧ Shadow.mv h ≤ Shadow.m h ∧ 1 ≤ Shadow.nv h ∧ Shadow.nv h ≤ Shadow.n h ∧ 1 ≤ Shadow.kv h ∧
    Shadow.kv h ≤ (Shadow.pair h).2.1
  places   : ∀ j, j < Shadow.steps h → 0 ≤ (Shadow.step h j).tile ∧ (Shadow.step h j).tile ≤ 15 ∧ 0 ≤ (Shadow.step h j).row ∧
    (Shadow.step h j).row + (Shadow.step h j).mr ≤ 64
  operands : ∀ j, j < Shadow.steps h →
    FetchSound s (Shadow.step h j).aslot (Shadow.step h j).aoff
      (extent (Shadow.afmt h) (Shadow.apitch h) (Shadow.ta h) (Shadow.step h j).mr (Shadow.step h j).ke) ∧
    FetchSound s (Shadow.step h j).bslot (Shadow.step h j).boff
      (extent (Shadow.bfmt h) (Shadow.bpitch h) (Shadow.tb h) (Shadow.step h j).nc (Shadow.step h j).ke)

/-- An MCLR before the nest has still to clear the byte at `a` of the nest's bank (R314). -/
def ToClear (s : State) (n : Nat) (x : Nest) (a : Nat) : Prop :=
  ∃ k ∈ (s.tile n).array.clears, k.id < x.id ∧ k.seen = false ∧ k.bank0 = x.bank0 ∧ k.acc * 16384 ≤ a ∧ a < k.acc * 16384 + 16384

/-- The sheaf of a tile: its member 0, and its own place among the four (R168). -/
def sheafOf (t : Nat) : Nat := t / 256 * 256 + t % 128 / 2 * 2
def sheafPlace (t : Nat) : Nat := t % 2 + 2 * (t / 128 % 2)

/-- A row's 64 elements of an accumulator tile, as 256 bytes of the bank (R244, Table 12.1). -/
def accByte (acc row : Nat) : Nat := acc * 16384 + row * 256

/-- Element `e` of row or column `r` of what a step has sampled. -/
def sampledAt (l : List (List (Option Nat))) (r e : Nat) : Nat := ((l.getD r []).getD e none).getD 0

/-- The operands of a step have its shape: mr rows and nc columns of KC elements, of which those below ke were fetched (R308). -/
structure Sampled (h : Shadow) (p : Machine.Step) (o : StepOperands) : Prop where
  rows : o.rows.length = p.mr
  cols : o.cols.length = p.nc
  row  : ∀ l ∈ o.rows, l.length = (Shadow.pair h).2.1 ∧ ∀ e, e < l.length → ((l.getD e none).isSome = true ↔ e < p.ke)
  col  : ∀ l ∈ o.cols, l.length = (Shadow.pair h).2.1 ∧ ∀ e, e < l.length → ((l.getD e none).isSome = true ↔ e < p.ke)

/-- The sum of two FP32 patterns, rounded to nearest even (R84, R316). -/
def sumF32 (a b : Nat) : Nat := (roundF .f32 .rne false 0 (sum .rne (decodeF .f32 a) (decodeF .f32 b)).1).1

/-- The elements of a K-step (Table 14.4). -/
def perK (h : Shadow) : Nat := (Shadow.pair h).2.1 / (Shadow.pair h).2.2

/-- What K-step `k` of a step leaves in the element that holds `acc` (R307, Table 3.7): the elements e of the K-step with e < ke,
their products summed exactly, added with one rounding or wrapped. -/
def kStepLeaves (h : Shadow) (p : Machine.Step) (o : StepOperands) (r c : Nat) (acc k : Nat) : Nat :=
  let es := ((List.range (perK h)).map fun e => perK h * k + e).filter fun e => decide (e < p.ke)
  let first := p.first && decide (k = 0)
  if es = [] then acc
  else if Shadow.int h = true then
    (((if first then 0 else signedValue 32 acc) +
      (es.map fun e => signedValue 8 (sampledAt o.rows r e % 256) * signedValue 8 (sampledAt o.cols c e % 256)).sum) % 2 ^ 32).toNat
  else
    let x := es.foldl (fun v e => (sum .rne v (mulV (decodeF (elemFmt (Shadow.afmt h)) (sampledAt o.rows r e))
      (decodeF (elemFmt (Shadow.bfmt h)) (sampledAt o.cols c e))).1).1) (.zero false)
    (roundF .f32 .rne false 0 (if first then x else (sum .rne (decodeF .f32 acc) x).1)).1

/-- What a whole step leaves: its K-steps in ascending order. -/
def stepLeaves (h : Shadow) (p : Machine.Step) (o : StepOperands) (r c acc : Nat) : Nat :=
  (List.range (Shadow.pair h).2.2).foldl (kStepLeaves h p o r c) acc

/-- A bank of the accumulators by the nest's choice. -/
def bankOf (x : Tile) (bank0 : Bool) : Memory := if bank0 then x.acc0 else x.acc1

/-! ## Quay engines (R250-R266, R318-R333) -/

/-- The tile has a quay engine that the issuing core may use: a tile of an edge column, and not core 1 of a split one (R167, R318). -/
def HasQuay (s : State) : Prop := (s.latch.core / 2 % 128 = 0 ∨ s.latch.core / 2 % 128 = 127) ∧ OwnArray s

/-- A quay form's operands, its task before issue, and what the checks of R325 to R327 find. -/
def quayForm? : Instr → State → Option (QuayOp × QuayTask × Option TrapInfo)
  | .qget o, s => some (o, s.copyTask o .get, s.copyCause o true)
  | .qput o, s => some (o, s.copyTask o .put, s.copyCause o false)
  | .qgath o, s => some (o, s.gatherTask o, s.gatherCause o)
  | .qatomAdd o, s => some (o, s.atomTask o 0, s.atomCause o false)
  | .qatomMin o, s => some (o, s.atomTask o 1, s.atomCause o false)
  | .qatomMax o, s => some (o, s.atomTask o 2, s.atomCause o false)
  | .qatomMinn o, s => some (o, s.atomTask o 3, s.atomCause o false)
  | .qatomMaxn o, s => some (o, s.atomTask o 4, s.atomCause o false)
  | .qatomSwap o, s => some (o, s.atomTask o 5, s.atomCause o false)
  | .qatomCas o, s => some (o, s.atomTask o 6, s.atomCause o true)
  | .qatomAnd o, s => some (o, s.atomTask o 7, s.atomCause o false)
  | .qatomOr o, s => some (o, s.atomTask o 8, s.atomCause o false)
  | .qatomXor o, s => some (o, s.atomTask o 9, s.atomCause o false)
  | _, _ => none

/-- The units and the kind that a quay form asks for (R324, R326, R327). -/
def quayUnits? : Instr → State → Option (QuayKind × Nat)
  | .qget o, s => some (.get, (s.x o.xb).toNat / 2 ^ 32 % 2 ^ 16)
  | .qput o, s => some (.put, (s.x o.xb).toNat / 2 ^ 32 % 2 ^ 16)
  | .qgath o, s => some (.gath, (s.x o.xb).toNat / 2 ^ 32 % 2 ^ 16 * ((s.x o.xd).toNat / 2 ^ 32 % 2 ^ 8))
  | .qatomAdd _, _ => some (.atom 0, 1)
  | .qatomMin _, _ => some (.atom 1, 1)
  | .qatomMax _, _ => some (.atom 2, 1)
  | .qatomMinn _, _ => some (.atom 3, 1)
  | .qatomMaxn _, _ => some (.atom 4, 1)
  | .qatomSwap _, _ => some (.atom 5, 1)
  | .qatomCas _, _ => some (.atom 6, 1)
  | .qatomAnd _, _ => some (.atom 7, 1)
  | .qatomOr _, _ => some (.atom 8, 1)
  | .qatomXor _, _ => some (.atom 9, 1)
  | _, _ => none

/-- A quay queue of the issuing tile, and a token store of it. -/
def quayOf (s : State) (q : Nat) : QuayQueue := s.quay (s.latch.core / 2) q
def tokensOf (s : State) (tid : Nat) : List Token := Table.get [] (mine s).tokens tid

/-- The queue and the token store have room for the operation (R321, R330). -/
def QuayRoom (s : State) (o : QuayOp) : Prop :=
  (quayOf s o.q.toNat).tasks.length < 64 ∧ (o.tw = true → tokensOf s o.tid.toNat ≠ []) ∧
    (o.tp = true → (tokensOf s o.tid.toNat).length < (if o.tw = true then 65 else 64))

/-- The handle that a quay form names, in the context of its task. -/
def handleNamed (s : State) (o : QuayOp) : Handle :=
  Table.get Handle.reset s.handles ((ownPart s).queue * 1024 + (s.x o.xa).toNat / 2 ^ 48)

/-- The tile-store end of an operation (R325): aligned, and inside one region that permits the access unless it is empty. -/
def StoreEnd (s : State) (write : Bool) (a n al : Nat) : Prop :=
  a % al = 0 ∧ (n ≠ 0 → ∃ r, Inside s r a n al ∧ if write = true then Storable r else r.kind ≤ 2)

/-- The FMT of the region that holds an address; 0 where none does. -/
def formatAt (s : State) (a : Nat) : Nat := (s.fmtAt a).getD 0

/-- A handle names an open slot of the context with its generation (R262). -/
def HandleOpen (s : State) (h : Nat) : Prop :=
  h / 256 < 1024 ∧ (s.handle (ownPart s).queue (h / 256)).state = .opened ∧ (s.handle (ownPart s).queue (h / 256)).gen = h % 256

/-- A page suits an access (R254, R325): valid, writable under a write, and of the tile-store end's FMT. -/
def PageSuits (e : Word) (write : Bool) (fmt : Nat) : Prop :=
  e.getLsbD 63 = true ∧ (write = true → e.getLsbD 62 = false) ∧ e.toNat / 2 ^ 56 % 2 ^ 4 = fmt

/-- The second-tier end of an operation (R325): `n` bytes at offset `off` of an open handle, aligned, inside its length, writable under a
write, on pages that suit. -/
structure HandleEnd (s : State) (h off n al : Nat) (write : Bool) (fmt : Nat) : Prop where
  opened  : HandleOpen s h
  aligned : off % al = 0
  length  : off + n ≤ 64 * (s.handle (ownPart s).queue (h / 256)).len
  rights  : write = true → (s.handle (ownPart s).queue (h / 256)).ro = false
  pages   : ∀ i, i < n → PageSuits (s.leaf (ownPart s).queue ((s.handle (ownPart s).queue (h / 256)).base + off + i)) write fmt

/-- The operands of a quay form: the tile-store address, COUNT, the handle and the offset (Table 15.1). -/
def endOf (s : State) (o : QuayOp) : Nat := (s.x o.xb).toNat % 2 ^ 24
def countIn (s : State) (o : QuayOp) : Nat := (s.x o.xb).toNat / 2 ^ 32 % 2 ^ 16
def handleIn (s : State) (o : QuayOp) : Nat := (s.x o.xa).toNat / 2 ^ 40
def offsetIn (s : State) (o : QuayOp) : Nat := (s.x o.xa).toNat % 2 ^ 40

/-- QGET or QPUT executes normally (R325). -/
structure CopySound (s : State) (o : QuayOp) (get : Bool) : Prop where
  store : StoreEnd s get (endOf s o) (64 * countIn s o) 64
  tier  : HandleEnd s (handleIn s o) (offsetIn s o) (64 * countIn s o) 64 (!get) (formatAt s (endOf s o))

/-- The row length and the index list of a gather, and its index `i` (R326). -/
def rowUnits (s : State) (o : QuayOp) : Nat := (s.x o.xd).toNat / 2 ^ 32 % 2 ^ 8
def indexList (s : State) (o : QuayOp) : Nat := (s.x o.xd).toNat % 2 ^ 24
def indexOf (s : State) (o : QuayOp) (i : Nat) : Nat := loaded s (indexList s o + 4 * i) 4

/-- QGATH executes normally (R326), as far as the indices that it samples at once decide it: the first sixteen. -/
structure GatherSound (s : State) (o : QuayOp) : Prop where
  store : StoreEnd s true (endOf s o) (64 * (countIn s o * rowUnits s o)) 64
  row   : rowUnits s o ≠ 0
  list  : StoreEnd s false (indexList s o) (4 * countIn s o) 4
  opened : HandleOpen s (handleIn s o)
  rows  : ∀ i, i < 16 → i < countIn s o →
    HandleEnd s (handleIn s o) (offsetIn s o + indexOf s o i * rowUnits s o * 64) (64 * rowUnits s o) 64 false (formatAt s (endOf s o))
  clean : NoErrors s
  space : (handleNamed s o).base + 64 * (handleNamed s o).len ≤ 2 ^ 48

/-- What queue `q` of the issuing tile was to write into the tile store before operation `id` is written, on an earlier cycle: its
unfinished operations of before are QPUTs (R273). -/
def EarlierWritten (s : State) (q id : Nat) : Prop :=
  (∀ j ∈ (quayOf s q).tasks, j.id < id → j.kind = .put) ∧
    ∀ e ∈ (quayOf s q).status, ∀ st r, e.2 = some st → st.id < id → st.done = some r → r.2 < s.now

/-- The elements of an atomic. -/
def atomCount (s : State) (o : QuayOp) : Nat := (s.x o.xb).toNat / 2 ^ 32 % 2 ^ 5

/-- QATOM executes normally (R327): 1 to 16 elements, 8 for a CAS, inside one 64-byte unit of a 32-bit format. -/
structure AtomSound (s : State) (o : QuayOp) (cas : Bool) : Prop where
  store  : StoreEnd s true (endOf s o) 64 64
  count  : 1 ≤ atomCount s o ∧ atomCount s o ≤ if cas = true then 8 else 16
  unit   : offsetIn s o / 64 = (offsetIn s o + 4 * atomCount s o - 1) / 64
  tier   : HandleEnd s (handleIn s o) (offsetIn s o) (4 * atomCount s o) 4 true (formatAt s (endOf s o))
  format : formatAt s (endOf s o) = 5 ∨ formatAt s (endOf s o) = 8

/-- A quay form executes normally. -/
def QuaySound : Instr → State → Prop
  | .qget o, s => CopySound s o true
  | .qput o, s => CopySound s o false
  | .qgath o, s => GatherSound s o
  | .qatomCas o, s => AtomSound s o true
  | .qatomAdd o, s | .qatomMin o, s | .qatomMax o, s | .qatomMinn o, s | .qatomMaxn o, s | .qatomSwap o, s | .qatomAnd o, s
  | .qatomOr o, s | .qatomXor o, s => AtomSound s o false
  | _, _ => False

/-- The rows that a gather samples one sixteen a cycle: 0 for another form (R326). -/
def rowsOf (i : Instr) (s : State) : Nat :=
  match i with
  | .qgath o => countIn s o
  | _ => 0

/-- Of a quay form, only the core, its tile, its partition's touched pages, the handles, the TLBs and the agenda differ. -/
def OnlyQuay (s t : State) : Prop :=
  t = { s with latch := t.latch, agenda := t.agenda, order := t.order, parts := t.parts, handles := t.handles, tlbs := t.tlbs,
               cores := Table.set Core.idle s.cores s.latch.core t.me,
               tiles := Table.set Tile.idle s.tiles (s.latch.core / 2) (mine t) } ∧
  (∃ es fs, t.me = { s.me with startLog := s.me.startLog ++ es,
                               regs := { s.me.regs with flights := s.me.regs.flights ++ fs } })

/-- The word that a quay form delivers: its serial and the tick of its promise (R324). -/
def promiseOf (s : State) (serial promise : Nat) : Word := BitVec.ofNat 64 (serial * 2 ^ 48 + s.tickAt promise % 2 ^ 48)

/-- The word of a completed operation: its poison count and the tick of its completion (R331, R332). -/
def completionOf (s : State) (r : Nat × Nat) : Word := BitVec.ofNat 64 (r.1 % 2 ^ 16 * 2 ^ 48 + s.tickAt r.2 % 2 ^ 48)

/-- In `t` the `n` bytes of the second tier at `a` are those of `v`, and every other byte of every memory reads as in `s`. -/
def TierGets (s t : State) (a n v : Nat) : Prop :=
  (∀ b, Memory.read t.tier b = if a ≤ b ∧ b < a + n then BitVec.ofNat 8 (v / 2 ^ (8 * (b - a))) else Memory.read s.tier b) ∧
    SameTileBytes s t ∧ ∀ b, Memory.read t.hostMem b = Memory.read s.hostMem b

/-- What an atomic leaves in an element (Table 15.4). -/
def atomLeaves (aop old w cmp : Nat) : Nat :=
  match aop with
  | 0 => (old + w) % 2 ^ 32
  | 1 => if signedValue 32 w < signedValue 32 old then w else old
  | 2 => if signedValue 32 old < signedValue 32 w then w else old
  | 3 => if w < old then w else old
  | 4 => if old < w then w else old
  | 5 => w
  | 6 => if old = cmp then w else old
  | 7 => old &&& w
  | 8 => old ||| w
  | _ => old ^^^ w

/-- The 32-bit lane `j` of 64 bytes. -/
def lane32 (d : BitVec 512) (j : Nat) : Nat := d.toNat / 2 ^ (32 * j) % 2 ^ 32

/-- An access of an operation reaches its place now: no correction is retried there, the card is free, and no operation of the queue goes
first (R278, R279, R329). -/
structure MayReach (s : State) (n q : Nat) (k : QuayTask) (pa : Nat) : Prop where
  card  : s.cardHeld pa = false
  retry : Table.get 0 s.cardRetries (pa / 64) = 0
  first : ∀ j ∈ (s.quay n q).tasks, j.blocks k = false

/-- A unit of an operation may perform now: no token holds the operation, its place is reached, and is not poisoned. -/
structure MayPerform (s : State) (n q : Nat) (k : QuayTask) (pa : Nat) : Prop where
  token : s.quayHeld n k = false
  reach : MayReach s n q k pa
  clean : pa / 64 ∉ s.tierPoison

/-! ## Collectives (R334-R341) -/

/-- The descriptor that a COLL names: 64 bytes of the store at x(XA)[23:0]. -/
def descAt (s : State) (xa : BitVec 4) : List Byte := s.storeBytes (s.latch.core / 2) ((s.x xa).toNat % 2 ^ 24) 64

/-- What CWAIT delivers: the stale count, the ticket and the outcome (R341). -/
def outcomeWord (x : Tile) (ticket code : Nat) : Word := BitVec.ofNat 64 (min x.stale 0xFFFF * 2 ^ 16 + ticket * 2 ^ 8 + code)

/-- COLL may read its descriptor, and the tile has a ticket left (R338). -/
structure CollSound (s : State) (xa : BitVec 4) : Prop where
  phase  : Exchanges s
  place  : ∃ r, Inside s r ((s.x xa).toNat % 2 ^ 24) 64 64 ∧ r.kind ≤ 2
  clean  : NoErrors s
  ticket : (mine s).colls.length < 16

/-- A collective goes on: it has not aborted, and none of its participants has stopped. -/
structure Running (s : State) (x : Coll) : Prop where
  aborted : x.aborted = none
  halted  : ∀ k ∈ x.parts, s.halted k.core = false

/-- Lane `j` of width `w` of bytes. -/
def laneAt (w : Nat) (b : List Byte) (j : Nat) : Nat := ofBytes b / 2 ^ (w * j) % 2 ^ w

/-! ## Optical circuits and the time group (R396-R423) -/

/-- The lane that ends on the issuing tile is `l`, carries data and may be used by the core (R396, R412). -/
def HasLane (s : State) (l : Nat) : Prop :=
  (s.latch.core / 2 % 128 % 2 = 0 ∧ (s.latch.core / 2 / 128 = 0 ∧ l = s.latch.core / 2 % 128 / 2 ∨
    s.latch.core / 2 / 128 = 79 ∧ l = 64 + s.latch.core / 2 % 128 / 2)) ∧ l % 64 ≠ 0 ∧ OwnArray s

/-- The optical entry that x(XA) names, and its fields (Table 21.1). -/
def optOf (s : State) (xa : BitVec 4) : OptChan := s.opt (s.latch.core / 2) ((s.x xa).toNat / 2 ^ 24 % 2 ^ 8)
def optWord (s : State) (xa : BitVec 4) : Nat := (optOf s xa).entry.toNat

/-- The entry is in the table and its KIND is `a` or `b`. -/
def OptKind (s : State) (xa : BitVec 4) (a b : Nat) : Prop :=
  (s.x xa).toNat / 2 ^ 24 % 2 ^ 8 < 64 ∧ (optKind (optWord s xa) = a ∨ optKind (optWord s xa) = b)

/-- The issuing tile is a port tile: an optical lane ends on it (R396). -/
def PortTile (s : State) : Prop :=
  s.latch.core / 2 % 128 % 2 = 0 ∧ (s.latch.core / 2 / 128 = 0 ∨ s.latch.core / 2 / 128 = 79)

/-- The flits that x(XA) asks for. -/
def optCount (s : State) (xa : BitVec 4) : Nat :=
  if (s.x xa).toNat / 2 ^ 32 % 2 ^ 16 = 0 then optLen (optWord s xa) else (s.x xa).toNat / 2 ^ 32 % 2 ^ 16

/-- The flits written to an optical entry before the present cycle. -/
def optArrived (s : State) (xa : BitVec 4) : Nat :=
  if (optOf s xa).lastAt = s.now then (optOf s xa).arr - (optOf s xa).lastN else (optOf s xa).arr

/-- The lane of the issuing tile. -/
def laneOf' (s : State) : Lane := (mine s).lane

/-- The port tile of a lane (R396). -/
def tileOfLane (l : Nat) : Nat := (if l < 64 then 0 else 79) * 128 + 2 * (l % 64)

/-- The modules of one time group (R418). -/
def SameGroup (m n : Nat) : Prop := m / 32 = n / 32

/-- Another module of the time group, neither a spare nor the guard, serves at `place` of the parity groups (R418). -/
def ServesHere (s : State) (m place : Nat) : Prop :=
  SameGroup m s.modid ∧ m ∉ s.spares ∧ s.guard_ ≠ some m ∧ (s.serving.find? fun e => decide (e.2 = m + 1)).map Prod.fst = some place

/-- No other loss in the parity group of `place` is under repair (R421). -/
def RebuildPossible (s : State) (place : Nat) : Prop :=
  Table.get 0 s.rebuilds (place / 8) ≤ s.now ∧ 8 ≤ (s.serving.filter fun e => decide (e.1 / 8 = place / 8)).length

/-- Nor is the guard lost, or a checkpoint begun (R421). -/
def Rebuildable (s : State) (place : Nat) : Prop :=
  RebuildPossible s place ∧ s.guard_.isSome = true ∧ (∀ e ∈ s.colls, ∀ k ∈ e.2.parts, descKind k.desc ≠ 4) ∧
    ∀ e ∈ s.parts, e.2.checks = false

/-- OSEND executes normally on lane `l` (R412, R413), with `n` flits from `src`: its port is not lost. -/
structure OsendSound (s : State) (l : Nat) (xa : BitVec 4) (n src : Nat) : Prop where
  phase  : Exchanges s
  lane   : HasLane s l
  kind   : OptKind s xa 1 3
  length : (s.x xa).toNat / 2 ^ 48 % 2 ^ 16 + n ≤ optLen (optWord s xa)
  source : SourceFits s src n

/-- ORECV executes on lane `l` (R412, R414), for `need` flits. -/
structure OrecvSound (s : State) (l : Nat) (xa : BitVec 4) (need : Nat) : Prop where
  phase  : Exchanges s
  lane   : HasLane s l
  kind   : OptKind s xa 2 4
  length : need ≤ optLen (optWord s xa)

/-! ## Queues, launches and hosts (R191-R206, R424-R432) -/

/-- Queue `q` with its head past a command of `n` words that began there. -/
def past (s : State) (q n : Nat) : Queue :=
  { s.queue q with at_ := (s.queue q).head, head := ((s.queue q).head + n) % 2 ^ (s.queue q).log2 }

/-- Only queue `q` and the agenda differ: the queue is `x`, but for the cycle from which it counts as idle. -/
def QueueIs (s t : State) (q : Nat) (x : Queue) : Prop :=
  t = { s with agenda := t.agenda, order := t.order,
               queues := Table.set Queue.reset s.queues q { x with idleAt := (t.queue q).idleAt } }

/-- The command of `n` words halts its queue with an error of Table 9.4, and does nothing else. -/
def Halts (i : Instr) (s : State) (q n err : Nat) : Prop :=
  Ends i s fun t => QueueIs s t q { past s q n with halt := true, err := err, word := (s.queue q).head }

/-- A token has reached a value: their difference modulo 2^32 is below 2^31 (R196). -/
def Reached (tok value : Nat) : Prop := (tok + 2 ^ 32 - value % 2 ^ 32) % 2 ^ 32 < 2 ^ 31

/-- Every byte of a range is mapped in a context (R253). -/
def Mapped (s : State) (ctx va n : Nat) : Prop := va + n ≤ 2 ^ 48 ∧ ∀ i, i < n → (s.leaf ctx (va + i)).getLsbD 63 = true

/-- IFMEM's comparison (Table 9.2). -/
def ifTrue (cond m v : Nat) : Prop :=
  match cond with
  | 0 => m = v
  | 1 => m ≠ v
  | 2 => m < v
  | _ => v ≤ m

/-- The token that a command with SIG signals on queue `q`. -/
def signals (q : Nat) (sig : Bool) (tok : BitVec 4) : Option Nat := if sig = true then some (16 * q + tok.toNat) else none

/-- The transfer that a COPYHT asks for. -/
def copyOf (q : Nat) (sig : Bool) (tok : BitVec 4) (dir : Bool) (host : Word) (dev : BitVec 48) (len : Word) : Copy :=
  { toHost := dir, host := host.toNat, dev := dev.toNat, len := len.toNat, token := signals q sig tok }

/-- The tokens after a signal. -/
def Signalled (s t : State) (k : Option Nat) : Prop :=
  ∀ n, t.token n = if k = some n then (s.token n + 1) % 2 ^ 32 else s.token n

/-- A translation that is kept is no longer that of the tables. -/
def Outdated (t : State) (ctx : Nat) (frames : List (Nat × Word)) : Prop := ∃ f ∈ frames, t.leaf ctx (f.1 * 2 ^ 21) ≠ f.2

/-- An old translation is still held (R265, R285): by a dying entry of a TLB, by an operation that waits for room in its queue or has rows
to sample, or by a collective that has not ended. -/
def Draining (t : State) : Prop :=
  (∃ p ∈ t.tlbs, ∃ e ∈ p.2.entries, e.dying = true) ∨
  (∃ c ∈ t.cores, ∃ h ∈ c.2.heldTasks, Outdated t h.2.1.ctx (h.2.1.frames ++ h.2.1.tables)) ∨
  ∃ e ∈ t.colls, ∃ k ∈ e.2.parts, k.gone = false ∧ Outdated t k.ctx k.frames

/-- Some page of a MAP is valid, and is replaced. -/
def Replaces (s : State) (q va count : Nat) : Prop := ∃ i, i < count ∧ (s.leaf q (va + i * 2 ^ 21)).getLsbD 63 = true

/-- The fields of a MAP that make it illegal (R255, Table 9.2). -/
def MapIllegal (va entry count : Nat) : Prop :=
  entry / 2 ^ 63 = 0 ∨ entry / 2 ^ 23 % 2 ^ 33 ≠ 0 ∨ 13 ≤ entry / 2 ^ 56 % 2 ^ 4 ∨
    ¬ (entry / 2 ^ 60 % 2 = 1 ↔ entry / 2 ^ 56 % 2 ^ 4 = 11 ∨ entry / 2 ^ 56 % 2 ^ 4 = 12) ∨
    5859374 < entry % 2 ^ 23 + count - 1 ∨ 2 ^ 48 < va + count * 2 ^ 21 ∨ count = 0 ∨ 65536 < count

/-- The header at `addr` in the memory of queue `q`'s context. -/
def headerAt (s : State) (q : Nat) (addr : BitVec 48) : Option Header256 := (s.ctxBytes q addr.toNat 256).map readHeader

/-- What a launch is once its header is read: its image is named by the second tier's places of the header's blocks (log entry 4). -/
def launchOf (s : State) (q : Nat) (h : Header256) (w ht : Nat) (sig : Bool) (tok : BitVec 4) (save : Option Nat) : Launch :=
  { hdr := h, image := s.imageKey q h, width := w, height := ht, token := if sig = true then some tok.toNat else none, save := save }

/-- A block of the header is mapped at its first byte, and where an image begins there, over all of its bytes (R253, log entry 4). -/
def BlocksMapped (s : State) (q : Nat) (l : Launch) : Prop :=
  (∀ a ∈ l.hdr.blocks, Mapped s q a 1) ∧ ∀ im, s.image l.image = some im → ∀ e ∈ l.hdr.blocks.zip im.sizes, Mapped s q e.1 e.2

/-- The image that a launch reads through its context: it begins at the header's blocks, and every page of them is translated to the frame
that holds it. -/
def ImageRead (s : State) (q : Nat) (l : Launch) (im : Image) : Prop :=
  s.image l.image = some im ∧ (im.pages l.hdr).map (fun p => (s.leaf q (p * 2 ^ 21)).toNat % 2 ^ 23) = im.frames

/-- The launch passes the checks of its header, its shape, its hints and its image (R198-R202, R398). -/
structure Sound (s : State) (q : Nat) (l : Launch) (im : Image) : Prop where
  header : headerBad l.hdr l.width l.height = false
  width  : l.width ≠ 0
  height : l.height ≠ 0
  blocks : BlocksMapped s q l
  hints  : (s.readHints q l.hdr).isSome = true
  image  : ImageRead s q l im
  optics : s.opticsBad im l.width l.height = false
  tables : im.bad l.hdr l.width l.height = false
  place  : ((scanOrigins l.hdr.gsize l.width l.height).any fun o => im.usable l.width l.height o.1 o.2) = true

/-- Queue `k` waits for a rectangle for a part of the group program of tag `gtag`. -/
def WaitsWith (s : State) (k gtag : Nat) : Prop :=
  (s.queue k).block = .place ∧ ∃ l, (s.queue k).launch = some l ∧ l.hdr.gcount ≠ 0 ∧ l.hdr.gtag = gtag

/-- What every launch of `n` words comes to: an illegal header or shape halts it, an empty shape completes at once, a block or a hint table
that is not mapped halts it, as do a missing image and one at fault, and a sound one waits for its rectangle. An optical fault of a part
of a group program halts the queues of its other parts too (R398). -/
def Launched (i : Instr) (s : State) (q n : Nat) (l : Launch) : Prop :=
  (headerBad l.hdr l.width l.height = true → Halts i s q n 5) ∧
  (headerBad l.hdr l.width l.height = false → l.width = 0 ∨ l.height = 0 → Ends i s fun t =>
    t = { s with agenda := t.agenda, order := t.order, queues := t.queues, tokens := t.tokens } ∧
      t.queue q = { past s q n with idleAt := (t.queue q).idleAt } ∧ Signalled s t (l.token.map fun k => 16 * q + k)) ∧
  (headerBad l.hdr l.width l.height = false → l.width ≠ 0 → l.height ≠ 0 →
    (¬ BlocksMapped s q l ∨ s.readHints q l.hdr = none → Halts i s q n 8) ∧
    (BlocksMapped s q l → (s.readHints q l.hdr).isSome = true →
      ((∀ im, ¬ ImageRead s q l im) → Halts i s q n 6) ∧
      ∀ im, ImageRead s q l im →
        (s.opticsBad im l.width l.height = true → (l.hdr.gcount = 0 → Halts i s q n 6) ∧
          (l.hdr.gcount ≠ 0 → Ends i s fun t => (t.queue q).halt = true ∧ (t.queue q).err = 6 ∧
            ∀ k, k < 16 → k ≠ q → WaitsWith s k l.hdr.gtag → (t.queue k).block = .none ∧ (t.queue k).halt = true ∧ (t.queue k).err = 6)) ∧
        (s.opticsBad im l.width l.height = false →
          im.bad l.hdr l.width l.height = true ∨ (∀ o ∈ scanOrigins l.hdr.gsize l.width l.height, im.usable l.width l.height o.1 o.2 = false) →
          Halts i s q n 6))) ∧
  (∀ im, Sound s q l im → Ends i s fun t =>
    QueueIs s t q { past s q n with block := .place, launch := some l } ∧ Scheduled t s.now rankAfter (.launchPlacement q))

/-- Host `h` owns the module: its writes count (R426). -/
def Owns (s : State) (h : Nat) : Prop := s.lease.valid = true ∧ s.now < s.lease.expiry ∧ s.lease.owner = h

/-- Host `h` holds the lease from now, for a second, with the expiry scheduled. -/
def Leased (s t : State) (h claimed : Nat) (failed : List Nat) : Prop :=
  t = { s with agenda := t.agenda, order := t.order,
               lease := { s.lease with valid := true, owner := h, expiry := s.now + 1200000000, claimed := claimed, failed := failed } } ∧
    Scheduled t (s.now + 1200000000) rankRelease .leaseExpiry

/-- A handle slot, and the three registers of a context: HBASE, HLEN and HCMD (R259, R260). -/
def slotOf (s : State) (ctx slot : Nat) : Handle := Table.get Handle.reset s.handles (ctx * 1024 + slot)
def handleWords (s : State) (ctx i : Nat) : Nat := (Table.get (0 : Word) s.handleRegs (4 * ctx + i)).toNat

/-- HCMD of a context shows a request's status and handle once it is posted, and reads as BUSY until then. -/
def Posts (s t : State) (ctx status handle : Nat) : Prop :=
  t.handleRegs = Table.set (0 : Word) s.handleRegs (4 * ctx + 2) (BitVec.ofNat 64 (status * 2 ^ 60 + handle % 2 ^ 24)) ∧
    ∃ n, s.now < n ∧ t.handleBusy = Table.set 0 s.handleBusy ctx n

/-- A request on a handle ends with a status and a handle in HCMD, and changes its slot to `x`, nothing else (R260). -/
def Answered (s t : State) (ctx slot status handle : Nat) (x : Handle) : Prop :=
  t = { s with agenda := t.agenda, order := t.order, free := t.free, handleRegs := t.handleRegs, handleBusy := t.handleBusy,
               handles := Table.set Handle.reset s.handles (ctx * 1024 + slot) x } ∧ Posts s t ctx status handle

/-- A request on a handle is refused with a status, and the handle in HCMD stays. -/
def Refused (s t : State) (ctx status : Nat) : Prop :=
  t = { s with free := t.free, handleRegs := t.handleRegs, handleBusy := t.handleBusy } ∧
    Posts s t ctx status (handleWords s ctx 2 % 2 ^ 24)

/-- A launch fits at an origin: its rectangle is free, and its ELATs are those of the place (R202). -/
def Fits (s : State) (im : Image) (l : Launch) (o : Nat × Nat) : Prop :=
  s.rectFree l.width l.height o.1 o.2 = true ∧ im.usable l.width l.height o.1 o.2 = true

/-- A number of `n` bytes at a virtual address of a context. -/
def savedAt (s : State) (ctx va n : Nat) : Nat := ofBytes ((s.ctxBytes ctx va n).getD [])

/-- The cores of a tile of a partition, the bytes of a tile in its save area, where tile `i`'s begin, and those of the area (Table 18.2). -/
def coresOf (p : Part) : Nat := if p.hdr.split = true then 2 else 1
def areaTile (p : Part) : Nat := 2 ^ 17 * coresOf p + 2 ^ 19 + p.hdr.lading
def tileArea (p : Part) (save i : Nat) : Nat := save + 4096 + i * areaTile p
def areaSize (p : Part) : Nat := 4096 + 4 * p.width * p.height * areaTile p

/-- What a core keeps fits its record of 131,072 bytes (Table 18.3). -/
def FitsArea (s : State) (c : Nat) : Prop :=
  (s.core c).regs.spills.length ≤ 256 ∧ (s.core c).regs.loops.length ≤ 6 ∧ ∀ i, i < 4 → (Table.get [] (s.tile (c / 2)).tokens i).length ≤ 64

/-- The general registers are those of the register record at `b` (Table 18.3). -/
def SavedRegs (s : State) (ctx b : Nat) (r : Regs) : Prop :=
  (∀ i, i < 640 → Table.get 0 r.v i = BitVec.ofNat 512 (savedAt s ctx (b + 64 * i) 64) ∧
    Table.get 0 r.w i = BitVec.ofNat 512 (savedAt s ctx (b + 0xA000 + 64 * i) 64)) ∧
  (∀ i, i < 32 → Table.get 0 r.k i = BitVec.ofNat 64 (savedAt s ctx (b + 0x14000 + 8 * i) 8) ∧
    Table.get 0 r.a i = BitVec.ofNat 64 (savedAt s ctx (b + 0x14100 + 8 * i) 8)) ∧
  ∀ i, i < 16 → Table.get 0 r.x i = BitVec.ofNat 64 (savedAt s ctx (b + 0x14200 + 8 * i) 8)

/-- No sheaf step of the partition is under way (R379). -/
def NoStep (s : State) (pid : Nat) : Prop := ∀ e ∈ s.shifts, ∀ x, e.2 = some x → x.owner ≠ some pid

/-- Partition `pid` runs from the tick of its last load + 4,096, rounded up to 64 (R204): every core begins at an entry in a phase. -/
def Loaded (s t : State) (pid : Nat) (p : Part) (entry : CodeAddr) (phase : Nat) : Prop :=
  (t.part pid).status = .running ∧
    (∃ last, s.now ≤ last ∧ (t.part pid).t0 = s.cycleOf ((s.tickAt last + 4096 + 63) / 64 * 64)) ∧
    ∀ c ∈ p.cores, (t.core c).part = some pid ∧ (t.core c).phase = phase ∧ (t.core c).pc = coreEntry entry (c % 2) ∧
      Scheduled t ((t.part pid).t0 + (t.core c).pos) rankRelease (.startEntry c)

/-- A RETIRE's fields: the field column and row, the sheaf column and row of a PTID (Table 1.8). -/
def ptidField (p : Nat) : Nat := p / 2 ^ 12 % 2 ^ 3 * 6 + p / 2 ^ 9 % 2 ^ 3
def ptidCol (p : Nat) : Nat := p / 2 ^ 5 % 2 ^ 4
def ptidRow (p : Nat) : Nat := p / 2 ^ 2 % 2 ^ 3

/-- The sheaf shift of a sheaf row of a field, and the mask of the row. -/
def shiftOf (s : State) (f r : Nat) : Option Shift := Table.get Option.none s.shifts (f * 8 + r)
def maskOf (s : State) (f r : Nat) : Nat := Table.get 0 s.deadMask (f * 8 + r)

/-- The cycles of a self-test by its scope (Table 19.3). -/
def testTime (scope : Nat) : Nat := [120000, 1600000, 240000, 2400000].getD scope 0

/-- No placed partition holds a tile of a self-test's target. -/
def TargetFree (s : State) (scope tile : Nat) : Prop := ∀ t ∈ s.testTargets scope tile, s.owner t = none

/-! ## Issue, results, segments and repair (R20-R24, R176-R190, R349-R366, R372-R392) -/

/-- Only the agenda differs. -/
def OnlyAgenda (s t : State) : Prop := t = { s with agenda := t.agenda, order := t.order }

/-- The core may issue a bundle now, alone: it runs in no gang, waits for nothing, its cycle has come, and no move holds its tile. -/
structure Ready1 (s : State) (c : Nat) : Prop where
  status : (s.core c).status = .running
  gang   : (s.core c).gsize = 0
  waits  : (s.core c).waits = []
  due    : (s.core c).due ≤ s.now
  still  : (s.tile (c / 2)).move ≠ .waiting ∧ (s.tile (c / 2)).move ≠ .holding

/-- No trap is due in place of the bundle. -/
def NoTrapDue (s : State) (c : Nat) : Prop := (s.core c).forced = none ∧ (s.core c).imprecise s.now = none

/-- Core `c` has entered the handler of a trap at the bundle at `a`. -/
def Entered (s t : State) (c : Nat) (a : CodeAddr) (i : TrapInfo) : Prop :=
  TrapState (t.core c).regs a i ∧ (t.core c).hm = true ∧ SameBytes s t ∧ sameRegisters (t.core c).regs (s.core c).regs ∧
    (∀ d, d ≠ c → t.core d = s.core d) ∧ Scheduled t (s.now + 16) rankIssue (.handlerEntry c (t.core c).gen)

/-- A write in flight that is due on the register prevails over every other (R23): it is of the later bundle, or of the slot that comes
first in the order of its bundle. -/
def Prevails (s : State) (c : Nat) (f : Flight) : Prop :=
  f ∈ (s.core c).regs.flights ∧ f.land ≤ s.now ∧
    ∀ g ∈ (s.core c).regs.flights, g.land ≤ s.now → g.dest = f.dest → g = f ∨ g.seq < f.seq ∨ g.seq = f.seq ∧ f.prio < g.prio

/-- The tiles that a shift's step moves are idle. -/
def StepReady (s : State) (f r : Nat) (x : Shift) : Prop := ∀ n ∈ s.stepTiles f r x, s.tileIdle n = true

/-- The map of a shift's step `k` has taken effect: the mask of the row holds its bit, MAPVER has risen, and the next step begins or the
shift is over (R165, R378). -/
def StepEnds (s t : State) (f r k : Nat) (x : Shift) : Prop :=
  SameBytes s t ∧ t.cores = s.cores ∧ t.mapver = (s.mapver + 1) % 2 ^ 32 ∧ maskOf t f r = 2 ^ (8 - k) ∧
    (k = 8 - x.dead → shiftOf t f r = none) ∧
    (k ≠ 8 - x.dead → ∃ y, shiftOf t f r = some y ∧ y.dead = x.dead ∧ y.step = k + 1)

/-- The map of a zone's present move has taken effect, and the next row of the column moves (R383). -/
def ZoneSteps (s t : State) (fcol r q : Nat) (rest : List Nat) : Prop :=
  SameBytes s t ∧ t.cores = s.cores ∧ (∃ y, Table.get Option.none t.zones fcol = some y ∧ y.rows = q :: rest) ∧
    t.spare fcol = s.fieldRow fcol r ∧ t.mapver = (s.mapver + 1) % 2 ^ 32

/-- The core has yet to observe its lock's last release (R230). -/
def Unobserved (s : State) (pid c : Nat) : Prop :=
  (((s.phaser pid 0).member c).mode ≠ none ∨ ((s.phaser pid 0).member c).view ≠ none) ∧
    ((s.phaser pid 0).member c).seen < (s.phaser pid 0).epoch

/-- A tile lies in the zone that is lost. -/
def LostIn (lost : Option (Nat × Nat)) (n : Nat) : Prop := lost = some (n % 128 / 16, n / 128 / 16)

/-- The lading region and the two halves of the mirror-reserve are apart. -/
def Apart (x : Core) (n : Nat) : Prop := x.lading + n ≤ x.mirror ∨ x.mirror + 2 * n ≤ x.lading

/-- No repair is under way or due in a partition: nothing is moved, tested or marked at its release. -/
def Quiet (s : State) (pid : Nat) : Prop :=
  s.shifts = [] ∧ s.zones = [] ∧ ∀ n ∈ (s.part pid).tiles, (s.tile n).testing = 0 ∧ (s.tile n).pairTest = false ∧ (s.tile n).pairDue = false ∧ (s.tile n).marked = none

/-- The zone retirement of a field column. -/
def zoneOf (s : State) (fcol : Nat) : Option ZoneMove := Table.get Option.none s.zones fcol

/-- The rows that move when field row `frow` of a column with spare `sp` is retired, in order: from the spare's neighbour to the failed
row (R382, R383). -/
def movingRows (sp frow : Nat) : List Nat :=
  if frow < sp then (List.range (sp - frow)).map fun i => sp - 1 - i else (List.range (frow - sp)).map fun i => sp + i

/-! ## Encodings and steps -/

/-- Slot `s` reads the word `w` as instruction `i` under guard p(GP), inverted where `gn` is set. -/
def Reads (s : Slot) (w : Nat) (gn : Bool) (gp : BitVec 4) (i : Instr) : Prop :=
  ∃ o, decodeSlot s w = .ok o ∧ o.gn = gn ∧ o.gp = gp ∧ o.body.instr = i

/-- The machine serves no queue now: no command is ready, or the agenda comes first. -/
def ServesNothing (s : State) : Prop := s.nextQueue = none ∨ s.agendaFirst = true

/-! ## The end of a bundle (R24, R27-R31, R77, R96, R101, R107) -/

/-- LE acts as the bundle ends: nothing transfers, and the K slot opens or leaves no loop (R27, R28). -/
def LoopEnds (s : State) : Prop :=
  s.latch.le = true ∧ s.latch.taken = none ∧ s.latch.jump = none ∧ s.latch.shadow = none ∧ s.latch.loops = .none

/-- The pass that ends is a body pass, or a drain pass, of level `top` (R27). -/
def BodyPass (s : State) (top : Loop) : Prop := LoopEnds s ∧ s.me.regs.loops.head? = some top ∧ 2 ≤ top.count.toNat
def DrainPass (s : State) (top : Loop) : Prop :=
  LoopEnds s ∧ s.me.regs.loops.head? = some top ∧ top.count.toNat < 2 ∧ s.latch.rt = true ∧ s.me.regs.epicnt ≠ 0

/-- The stage ladder and the rings advance at the bundle's end with a value for p8 (R31), unless a CSR of theirs is written (R107). -/
def StageAdvances (s : State) (f : Bool) : Prop :=
  s.latch.rt = true ∧ (∀ w ∈ s.latch.csrs, w.num ∉ [0x030, 0x031, 0x032, 0x033]) ∧
    ∃ top, BodyPass s top ∧ f = true ∨ DrainPass s top ∧ f = false

/-- A rotating base one unit of eight back in its region (R31). -/
def turnedBack (rot base : Nat) : Nat := if rot = 0 then base else (base + 8 * rot - 1) % (8 * rot)

/-- The registers as the bundle leaves them before its CSR writes: the loop levels, EPICNT, the stage ladder with what is in flight to it,
the rings, and RNGCTR; everything else is as it was. -/
structure BeforeWrites (s : State) (y : Regs) : Prop where
  same    : y = { s.me.regs with loops := y.loops, epicnt := y.epicnt, p := y.p, flights := y.flights, rrbv := y.rrbv,
                                 rrbw := y.rrbw, rngctr := y.rngctr }
  pushed  : ∀ l, s.latch.loops = .push l → y.loops = l :: s.me.regs.loops
  popped  : s.latch.loops = .pop → y.loops = s.me.regs.loops.tail
  kept    : s.latch.loops = .none → ¬ LoopEnds s → y.loops = s.me.regs.loops
  empty   : LoopEnds s → s.me.regs.loops = [] → y.loops = []
  body    : ∀ top rest, BodyPass s top → s.me.regs.loops = top :: rest →
    y.loops = { top with count := top.count - 1, index := top.index + 1 } :: rest
  drain   : ∀ top rest, DrainPass s top → s.me.regs.loops = top :: rest → y.loops = { top with index := top.index + 1 } :: rest
  exit    : ∀ top rest, LoopEnds s → s.me.regs.loops = top :: rest → ¬ BodyPass s top → ¬ DrainPass s top → y.loops = rest
  epicnt  : y.epicnt = s.me.regs.epicnt - 1 ∧ (∃ top, DrainPass s top) ∨ y.epicnt = s.me.regs.epicnt ∧ ∀ top, ¬ DrainPass s top
  ladder  : ∀ f, StageAdvances s f → (∀ n, n < 8 → y.p.getLsbD n = s.me.regs.p.getLsbD n) ∧ y.p.getLsbD 8 = f ∧
    (∀ n, 8 ≤ n → n < 15 → y.p.getLsbD (n + 1) = s.me.regs.p.getLsbD n) ∧
    y.rrbv = turnedBack s.me.regs.rotv s.me.regs.rrbv ∧ y.rrbw = turnedBack s.me.regs.rotw s.me.regs.rrbw ∧
    (∀ g ∈ s.me.regs.flights, (∀ n, g.dest = .reg (.p n) → n < 8) → g ∈ y.flights) ∧
    (∀ g ∈ s.me.regs.flights, ∀ n, 8 ≤ n → n < 15 → g.dest = .reg (.p n) → { g with dest := .reg (.p (n + 1)) } ∈ y.flights) ∧
    ∀ g ∈ y.flights, g.dest ≠ .reg (.p 8)
  still   : (∀ f, ¬ StageAdvances s f) → y.p = s.me.regs.p ∧ y.rrbv = s.me.regs.rrbv ∧ y.rrbw = s.me.regs.rrbw ∧
    y.flights = s.me.regs.flights
  draws   : (∀ w ∈ s.latch.csrs, w.num ≠ 0x023) → y.rngctr = s.me.regs.rngctr + BitVec.ofNat 64 s.latch.draws
  written : (∃ w ∈ s.latch.csrs, w.num = 0x023) → y.rngctr = s.me.regs.rngctr

/-- The bundle leaves registers `u`: its CSR writes come after, in their order; the extensions of its slots and its taken transfer, which
has the next bundle as its shadow, are pending. -/
def BundleLeaves (s : State) (u : Regs) : Prop :=
  ∃ y, BeforeWrites s y ∧ u = { s.latch.csrs.foldl (fun (z : Regs) (w : CsrWrite) => z.csrWrite w.num w.val) y with
    exts := s.latch.given, xfer := s.latch.taken.map fun a => { target := a, origin := s.latch.addr } }

/-- Where core `c` goes on after the bundle: at the target of the transfer whose shadow it was, at a zero-count LOOP's exit, at the start
of the level that goes on, or at the next bundle of the stream; the transfer's own address goes with its target. -/
def NextBundle (s : State) (x : Core) : Prop :=
  (∀ t, s.latch.shadow = some t → x.pc = t.target ∧ x.origin = some t.origin ∧ x.areaEnd = false) ∧
  (s.latch.shadow = none → (∀ a, s.latch.jump = some a → x.pc = a ∧ x.origin = some s.latch.addr ∧ x.areaEnd = false) ∧
    (s.latch.jump = none → (∀ top, BodyPass s top ∨ DrainPass s top → x.pc = top.start ∧ x.origin = none ∧ x.areaEnd = false) ∧
      ((∀ top, ¬ BodyPass s top ∧ ¬ DrainPass s top) → x.pc = (s.nextAddr s.latch.core s.latch.addr).1 ∧ x.origin = none ∧
        x.areaEnd = (s.nextAddr s.latch.core s.latch.addr).2)))

end Sys2Proof.Claims
end

