-- ==== Sys2Proof/Certificates/Slice0/Obligations.lean ====
section
/-! DEFINITION. The statements for the provers. -/

open Sys2Proof Sys2Proof.Machine Sys2Proof.Claims

/-- R88-R91, Tables 4.1 and 4.2 (R12: a write of k0 is discarded). Every scalar form of the K slot completes in every state, in
either phase and mode: k(D) is to receive the low 64 bits of the table's integer at the table's latency, and nothing else of the
machine changes. -/
def Obligations.ScalarResults : Prop :=
  ∀ (i : Instr) (s : State) (lat : Nat) (d : BitVec 5) (v : Int), kResult? i s = some (lat, d, v) → Issuing s →
    Ends i s fun t => Writes s t 0 lat (.k d.toNat) (low64 (BitVec.ofInt 64 v))

/-- R89. The four division forms complete and deliver quotient and remainder as R89 gives them: by zero all ones and the dividend, MIN by -1
MIN and 0, else rounded towards zero; a quotient and remainder of the same operands give the dividend back modulo 2^64. -/
def Obligations.DivisionForms : Prop :=
  ∀ (s : State) (d a b : BitVec 5) (x y : Word), Issuing s → x = s.k a → y = s.k b → ∃ q r qn rn : Word,
    Ends (.div d a b) s (fun t => Writes s t 0 20 (.k d.toNat) (low64 q)) ∧
    Ends (.rem d a b) s (fun t => Writes s t 0 20 (.k d.toNat) (low64 r)) ∧
    Ends (.divn d a b) s (fun t => Writes s t 0 20 (.k d.toNat) (low64 qn)) ∧
    Ends (.remn d a b) s (fun t => Writes s t 0 20 (.k d.toNat) (low64 rn)) ∧
    (y = 0 → q = 0xFFFFFFFFFFFFFFFF ∧ qn = 0xFFFFFFFFFFFFFFFF ∧ r = x ∧ rn = x) ∧
    (x.toInt = -2 ^ 63 → y.toInt = -1 → q = x ∧ r = 0) ∧
    (y ≠ 0 → ¬ (x.toInt = -2 ^ 63 ∧ y.toInt = -1) →
      q.toInt = x.toInt.tdiv y.toInt ∧ r.toInt = x.toInt - y.toInt * x.toInt.tdiv y.toInt) ∧
    (y ≠ 0 → qn.toNat = x.toNat / y.toNat ∧ rn.toNat = x.toNat % y.toNat) ∧
    x = q * y + r ∧ x = qn * y + rn

/-- R92, R93, Table 4.3. Every compare and predicate form completes: p(PD) is to receive, one cycle on, whether the condition holds. -/
def Obligations.PredicateResults : Prop :=
  ∀ (i : Instr) (s : State) (d : BitVec 4) (q : Prop), pResult? i s = some (d, q) → Issuing s →
    ∃ b : Bool, (b = true ↔ q) ∧ Ends i s fun t => Writes s t 0 1 (.p d.toNat) (if b then 1 else 0)

/-- R142-R145, R154, R155. Every integer lane form and permute, every VDOT4 and every integer reduction completes where the phase allows it:
each lane of D is to receive the table's value; a reduction leaves its value in lane 0 and zero above. -/
def Obligations.IntegerLanes : Prop :=
  (∀ (i : Instr) (s : State) (lat : Nat) (d : BitVec 10) (w : Nat) (f : Nat → Nat), vInt? i s = some (lat, d, w, f) →
    Issuing s → Computes s → Ends i s fun t => WritesLanes s t lat d w f) ∧
  (∀ (i : Instr) (s : State) (sa sb : Bool) (t : IType) (d a b c : BitVec 10) (sat : Bool),
    vDot? i = some (sa, sb, t, d, a, b, c, sat) → Issuing s → Computes s →
      Ends i s fun u => WritesLanes s u 3 d 32 fun j => fit t sat (dotSum s sa sb t a b c j)) ∧
  ∀ (i : Instr) (s : State) (d : BitVec 10) (w r : Nat), vRed? i s = some (d, w, r) → Issuing s → Computes s →
    Ends i s fun t => WritesLanes s t 6 d w fun j => if j = 0 then r else 0

/-- R138, R139, R146-R150. Every float lane form completes where the phase allows it: each lane of D is to receive the exact result rounded
once in the form's mode, or the comparison's mask, the sign transfer or the rounded integer; the OR of the lanes' flags goes to FFLAGS
with it, and a NaN in a result is reported where FMODE asks for it.
The bits kept of an irrational root are the model's reading (log entry 11). -/
def Obligations.FloatLanes : Prop :=
  (∀ (i : Instr) (s : State) (lat : Nat) (d : BitVec 10) (t : FType) (m : RMode) (x : Nat → FVal × Nat),
    vExact? i s = some (lat, d, t, m, x) → Issuing s → Computes s →
      Ends i s fun u => DeliversLanes s u lat d (fw t) (512 / fw t) (FType.fmt t) true (drawsOf m)
        fun j => rounded t m (randOf s m j) (x j)) ∧
  ∀ (i : Instr) (s : State) (lat : Nat) (d : BitVec 10) (t : FType) (m : RMode) (nan : Bool) (x : Nat → Nat × Nat),
    vLane? i s = some (lat, d, t, m, nan, x) → Issuing s → Computes s →
      Ends i s fun u => DeliversLanes s u lat d (fw t) (512 / fw t) (FType.fmt t) nan (drawsOf m) x

/-- R149, R151, R156. VFCLS sets the one class bit of each lane; VCVT converts its elements, the smaller count of the two widths, with zero
above; VRNG delivers the 32 random words of the count of R76 and draws one. All complete where the phase allows them. -/
def Obligations.ClassesConversionsAndRandomLanes : Prop :=
  (∀ (s : State) (d a : BitVec 10) (t : FType), Issuing s → Computes s →
    Ends (.vfcls d a t) s fun u => WritesLanes s u 2 d (fw t) fun j => classBit (FType.fmt t) (fsrc s t a j)) ∧
  (∀ (s : State) (d a : BitVec 10) (df sf : Fmt) (rm : RMode) (sat : Bool), Issuing s → Computes s →
    Ends (.vcvt d a df sf rm sat) s fun u =>
      DeliversLanes s u 4 d (Fmt.width df) (convertCount df sf) df (!Fmt.isInt df) (drawsOf (s.rmode rm))
        fun j => convert df sf (s.rmode rm) sat (randOf s (s.rmode rm) j) (src s (Fmt.width sf) a j)) ∧
  (∀ (s : State) (d : BitVec 10) (t : IType), Issuing s → Computes s →
    Ends (.vrng d t) s fun u =>
      ∃ v : Vec, Delivers s u 4 d v 0 0 1 ∧ ∀ j, j < 32 → v.toNat / 2 ^ (16 * j) % 2 ^ 16 = rand16 s.rndKey s.rndCtr j)

/-- R84, R152-R154. VQBLK quantizes its 24 values into one block with the block's flags, VDQBLK gives a block's elements back, and a float
reduction leaves the root of the pairwise tree in lane 0. All complete where the phase allows them. -/
def Obligations.BlocksAndFloatReductions : Prop :=
  (∀ (i : Instr) (s : State) (k : Blk) (d a b : BitVec 10) (rm : RMode), vQuant? i = some (k, d, a, b, rm) → Issuing s → Computes s →
    Ends i s fun u => Delivers s u 4 d
      (BitVec.ofNat 512 (quantizeBlock k (s.me.regs.delta k) (s.rmode rm) (blockInputs s a b)
        ((List.range 24).map (randOf s (s.rmode rm)))).1)
      (quantizeBlock k (s.me.regs.delta k) (s.rmode rm) (blockInputs s a b) ((List.range 24).map (randOf s (s.rmode rm)))).2
      (if poisoned k (quantizeBlock k (s.me.regs.delta k) (s.rmode rm) (blockInputs s a b)
        ((List.range 24).map (randOf s (s.rmode rm)))).1 then 1 else 0)
      (drawsOf (s.rmode rm))) ∧
  (∀ (i : Instr) (s : State) (k : Blk) (f : Fmt) (j0 n : Nat) (d a : BitVec 10), vDequant? i = some (k, f, j0, n, d, a) → Issuing s →
    Computes s → Ends i s fun u => DeliversLanes s u 4 d (Fmt.width f) n f true 0
      fun j => (blockLane f k ((s.src a).toNat % 2 ^ (8 * k.bytes)) (j0 + j), 0)) ∧
  (∀ (i : Instr) (s : State) (f : FVal → FVal → FVal × Nat) (t : FType) (d a : BitVec 10), vfRed? i = some (f, t, d, a) → Issuing s →
    Computes s → Ends i s fun u => DeliversLanes s u 6 d (fw t) 1 (FType.fmt t) true 0
      fun _ => rounded t .rne 0 (treeNode f (fsrc s t a) (levels t) 0))

/-- R55, R111, R133, R161. XCOPY completes from every slot and EXT too: the whole register, one 32-bit lane, or a broadcast goes into the named
register two cycles on, in the order of its slot; EXT leaves its payload for its slot of the next bundle. -/
def Obligations.CopiesBetweenFiles : Prop :=
  ∀ (s : State) (f : DFile) (d a : BitVec 10), Issuing s → (needsCompute s → Computes s) →
    Ends (.xcopy f d a) s (fun t => Writes s t (copyRank s f) 2 (s.me.regs.xdst f d) (copyWhole f (copySource s a))) ∧
    (∀ l : BitVec 4, Ends (.xcopyLane f d a l) s fun t =>
      ∃ v : Vec, Writes s t (copyRank s f) 2 (s.me.regs.xdst f d) v ∧
        (f = .v ∨ f = .w → ∀ i, i < 16 → v.toNat / 2 ^ (32 * i) % 2 ^ 32 =
          if i = l.toNat then copyLane s a l.toNat else (s.me.regs.get (s.me.regs.xdst f d)).toNat / 2 ^ (32 * i) % 2 ^ 32) ∧
        (f = .k ∨ f = .m ∨ f = .x → v.toNat = copyLane s a l.toNat) ∧ (f = .p → v.toNat = copyLane s a l.toNat % 2)) ∧
    Ends (.xcopyBcast f d a) s (fun t =>
      ∃ v : Vec, Writes s t (copyRank s f) 2 (s.me.regs.xdst f d) v ∧
        ∀ i, i < 16 → v.toNat / 2 ^ (32 * i) % 2 ^ 32 = (copySource s a).toNat % 2 ^ 32) ∧
    ∀ p : BitVec 51, Ends (.ext p) s fun t => t = { s with latch := { s.latch with
      given := s.latch.given ++ [(s.latch.slot, { payload := p, bad := decide (s.latch.word / 2 ^ 51 % 2 ^ 5 ≠ 0) })] } }

/-- R116, Table 5.1. Every address form completes in a compute phase: a(D) is to receive the low 64 bits of the table's value, one cycle on.
R222: XMOVI and XADDI complete in any phase, with their immediate or the sum in x(D). -/
def Obligations.AddressForms : Prop :=
  (∀ (i : Instr) (s : State) (d : BitVec 5) (v : Int), aResult? i s = some (d, v) → Issuing s → Computes s →
    Ends i s fun t => Writes s t 0 1 (.a d.toNat) (low64 (BitVec.ofInt 64 v))) ∧
  ∀ (s : State) (d a : BitVec 4) (imm : BitVec 32), Issuing s →
    Ends (.xmovi d imm) s (fun t => Writes s t 0 1 (.x d.toNat) (low64 (s.imm32 imm))) ∧
    Ends (.xaddi d a imm) s fun t => Writes s t 0 1 (.x d.toNat) (low64 (BitVec.ofInt 64 ((s.x a).toInt + (s.imm32 imm).toInt)))

/-- R117-R120, R127. A scalar load inside one region that may be loaded completes: the register named is to receive the bytes read at the
effective address, extended as the form says, five cycles on; the base is post-updated if it asks. -/
def Obligations.ScalarLoads : Prop :=
  ∀ (i : Instr) (s : State) (m : MemOp) (n : Nat) (sgn : Bool) (r : Region), scalarLoad? i = some (m, n, sgn) →
    Issuing s → Computes s → Inside s r (address s m) n n → Loadable r → NoErrors s →
      Ends i s fun t => LoadsInto s t m 5 (low64 (if sgn then (BitVec.ofNat (8 * n) (loaded s (address s m) n)).signExtend 64
        else BitVec.ofNat 64 (loaded s (address s m) n)))

/-- R117-R120, R125, R127. A store inside one region that may be stored to completes: the register's bytes are to be performed at the effective
address four cycles on, and no other byte; the base is post-updated if it asks, and no register else changes. -/
def Obligations.PlainStores : Prop :=
  ∀ (i : Instr) (s : State) (m : MemOp) (n : Nat) (r : Region), plainStore? i = some (m, n) →
    Issuing s → Computes s → Inside s r (address s m) n n → Storable r → RoomFor s (if n = 64 then 80 else 16) →
      Ends i s fun t => StoresLater s t m (placed (address s m) (memSource s m) n)

/-- R121-R123, R130. LDV in each of its views, LDVS and LDACC complete inside their region: the lanes of the register named are to receive the
view of the bytes read. -/
def Obligations.VectorLoads : Prop :=
  (∀ (s : State) (m : MemOp) (view : View) (r : Region) (n : Nat), Issuing s → Computes s → viewSize view r.fmt = some n →
    Inside s r (address s m) n n → Viewable view r → NoErrors s →
    (isBlockView view = true → poisoned (codeBlk r.fmt) (loaded s (address s m) n) = false) →
      Ends (.ldv m view) s fun t => ∃ v : Vec, LoadsInto s t m 6 v ∧
        ∀ i, i < 512 / viewWidth view → v.toNat / 2 ^ (viewWidth view * i) % 2 ^ viewWidth view =
          viewLane view r.fmt (loaded s (address s m) n) i) ∧
  (∀ (s : State) (m : MemOp) (view : View) (stride : BitVec 5) (r : Region), Issuing s → Computes s →
    view = .raw ∨ view = .dec ∧ r.fmt ≤ 10 → StridedInside s r m stride (elementSize view r.fmt) → Viewable view r → NoErrors s →
      Ends (.ldvs m view stride) s fun t => ∃ v : Vec, LoadsInto s t m 6 v ∧
        ∀ j, j < 16 → v.toNat / 2 ^ (32 * j) % 2 ^ 32 =
          viewLane view r.fmt (loaded s (elementAt s m stride j) (elementSize view r.fmt)) 0) ∧
  ∀ (s : State) (m : MemOp), Issuing s → Computes s → (s.me.split = false ∨ s.me.coreNo ≠ 1) → address s m < 0x40000 →
    address s m % 64 = 0 → NoErrors s →
      Ends (.ldacc m) s fun t => LoadsInto s t m 8
        (BitVec.ofNat 512 (Memory.nat (s.tile (s.latch.core / 2)).visible (address s m) 64))

/-- R123-R125, R128. STVS and STVM complete inside their region: the sixteen elements, or the bytes whose mask bit is 1, are to be performed four
cycles on. MARK holds the issue until the stores issued before it have performed. -/
def Obligations.VectorStoresAndMark : Prop :=
  (∀ (s : State) (m : MemOp) (stride : BitVec 5) (r : Region), Issuing s → Computes s → StridedInside s r m stride 4 → Storable r →
    RoomFor s 256 → Ends (.stvs m stride) s fun t => StoresLater s t m
      ((List.range 16).flatMap fun j => placed (elementAt s m stride j) ((memSource s m) >>> (32 * j)) 4)) ∧
  (∀ (s : State) (m : MemOp) (mk : BitVec 5) (r : Region), m.file = .v ∨ m.file = .w → Issuing s → Computes s →
    Inside s r (address s m) 64 64 → Storable r → RoomFor s 80 →
    Ends (.stvm m mk) s fun t => StoresLater s t m
      ((placed (address s m) (memSource s m) 64).filter fun e =>
        (s.vec (if m.file = .w then .w else .v) mk.toNat).getLsbD (e.1 - address s m))) ∧
  ∀ s : State, Issuing s → Computes s →
    Ends .mark s fun t => t = { s with latch := { s.latch with hold := max s.latch.hold (s.me.performs - s.now - 1) } }

/-- R131, R132. A SPILL parks its register in a register of the other file or in the spill region and records where; a FILL brings it back and
frees the place; with no place left, and for a register that is not parked, each takes 0x1A. -/
def Obligations.SpillsAndFills : Prop :=
  (∀ (s : State) (f : VFile) (reg : BitVec 10) (p : Nat), Issuing s → Computes s →
    s.me.spillPlace f (spillName s f reg) = some (.reg p) →
      Ends (.spill f reg) s fun t => Parks s t f (spillName s f reg) (.reg p) ∧ SameBytes s t ∧
        Launches s t [flight s 0 4 (vecId (VFile.other f) p) (s.vec f reg.toNat)]) ∧
  (∀ (s : State) (f : VFile) (reg : BitVec 10) (a : Nat), Issuing s → Computes s →
    s.me.spillPlace f (spillName s f reg) = some (.mem a) → RoomFor s 80 →
      Ends (.spill f reg) s fun t => Parks s t f (spillName s f reg) (.mem a) ∧ SameBytes s t ∧
        t.me.regs.flights = s.me.regs.flights ∧
        ∃ e ∈ t.agenda, e.at_ = s.now + 4 ∧
          e.ev = .storePerform s.latch.core (s.me.segOpen.getD 0) (placed a (s.vec f reg.toNat) 64)) ∧
  (∀ (s : State) (f : VFile) (reg : BitVec 10) (e : ParkEntry), Issuing s → Computes s →
    s.me.regs.spills.find? (fun e => decide (e.file = f ∧ e.reg = spillName s f reg)) = some e → NoErrors s →
      Ends (.fill f reg) s fun t => t.me.regs.spills = otherSpills s f (spillName s f reg) ∧ SameBytes s t ∧
        Launches s t [flight s 1 6 (vecId f (spillName s f reg)) (match e.place with
          | .reg p => s.me.regs.get (vecId (VFile.other f) p)
          | .mem a => BitVec.ofNat 512 (loaded s a 64))]) ∧
  ∀ (s : State) (f : VFile) (reg : BitVec 10), Issuing s → Computes s →
    (s.me.spillPlace f (spillName s f reg) = none → Trapped (.spill f reg) s 0x1A 0 0) ∧
    (s.me.regs.spills.find? (fun e => decide (e.file = f ∧ e.reg = spillName s f reg)) = none → Trapped (.fill f reg) s 0x1A 0 1)

/-- R95-R98. BR, JMP, RET and CALL complete in every state: each names the target of the transfer, and CALL writes k31 with the address after its
shadow.
The area bit of a relative target past its area is the model's reading (log entry 31). -/
def Obligations.TransfersOfControl : Prop :=
  ∀ (s : State) (off : BitVec 24) (a : BitVec 5), Issuing s →
    Ends (.br off) s (fun t => t = { s with latch := { s.latch with taken := some (relative s.latch.addr off) } }) ∧
    Ends (.jmp a) s (fun t => t = { s with latch := { s.latch with taken := some ((s.k a).setWidth 32) } }) ∧
    Ends (.ret a) s (fun t => t = { s with latch := { s.latch with taken := some ((s.k a).setWidth 32) } }) ∧
    Ends (.call off) s (fun t => ∃ u, Writes s u 0 1 (.k 31) (low64 s.link) ∧
      t = { u with latch := { s.latch with taken := some (relative s.latch.addr off) } }) ∧
    (s.latch.follow = none → NoShadow s →
      s.link = ((s.nextAddr s.latch.core (s.nextAddr s.latch.core s.latch.addr).1).1).setWidth 64)

/-- R29, R100-R105. LOOP and LOOPI skip a loop of count 0, push a level, and take 0x08 on a seventh level and in a shadow; LEXIT pops and leaves, LIDX
delivers a level's index, and each takes 0x08 where the level does not exist. -/
def Obligations.LoopForms : Prop :=
  ∀ (s : State) (off : BitVec 24) (a : BitVec 5) (n : BitVec 18) (d : BitVec 5) (lvl : BitVec 4), Issuing s →
    (NoShadow s → ∀ (i : Instr) (count : BitVec 32), i = .loop a off ∧ count = (s.k a).setWidth 32 ∨ i = .loopi off n ∧ count = s.imm18 n →
      (count = 0 → Ends i s fun t => t = { s with latch := { s.latch with jump := some (relative s.latch.addr off) } }) ∧
      (count ≠ 0 → depth s < 6 → Ends i s fun t => t = { s with latch := { s.latch with
        loops := .push { start := (s.nextAddr s.latch.core s.latch.addr).1, count := count, index := 0 } } }) ∧
      (count ≠ 0 → 6 ≤ depth s → Trapped i s 0x08 0 (depth s))) ∧
    (s.latch.shadow.isSome = true → Trapped (.loop a off) s 0x08 3 (depth s) ∧ Trapped (.loopi off n) s 0x08 3 (depth s)) ∧
    (0 < depth s → Ends (.lexit off) s fun t => t = { s with latch := { s.latch with
      taken := some (relative s.latch.addr off), loops := .pop } }) ∧
    (depth s = 0 → Trapped (.lexit off) s 0x08 1 0) ∧
    (∀ l, s.me.regs.loops[lvl.toNat]? = some l → Ends (.lidx d lvl) s fun t => Writes s t 0 1 (.k d.toNat) (low64 (l.index.setWidth 64))) ∧
    (depth s ≤ lvl.toNat → Trapped (.lidx d lvl) s 0x08 2 (depth s))

/-- R21, R24, R27-R31, R77, R96, R101, R107, R169. The outcome of a closing bundle and what it leaves in the level, EPICNT, the ring and the
ladder: body pass, drain pass, or exit. After its last slot every bundle ends: its CSR writes, the pass that closes, the level pushed or
popped, its extensions, the taken transfer with the next bundle as its one shadow and the draws of RNGCTR are in the registers, the core
goes on at the next address on the cycle that its holds give, and a lead has told its members; END stops the issue, TRET leaves the handler.
What a drain pass does to EPICNT beside a CSR write of the K slot is the model's reading (log entry 41). -/
def Obligations.PassesOfALoop : Prop :=
  (∀ (r : Regs) (l : Loop) (ls : List Loop) (rt : Bool), r.loops = l :: ls →
    (2 ≤ l.count.toNat → loopOutcome r rt = .body rt ∧
      (r.close (.body rt) false).loops = { l with count := l.count - 1, index := l.index + 1 } :: ls ∧
      (rt = false → r.close (.body rt) false = { r with loops := { l with count := l.count - 1, index := l.index + 1 } :: ls }) ∧
      (rt = true → (r.close (.body rt) false).epicnt = r.epicnt ∧ (r.close (.body rt) false).p.getLsbD 8 = true)) ∧
    (l.count.toNat < 2 → rt = true → 1 ≤ r.epicnt.toNat → loopOutcome r rt = .drain ∧
      (r.close .drain false).loops = { l with index := l.index + 1 } :: ls ∧
      (r.close .drain false).epicnt = r.epicnt - 1 ∧ (r.close .drain false).p.getLsbD 8 = false) ∧
    (l.count.toNat < 2 → (rt = false ∨ r.epicnt = 0) → loopOutcome r rt = .exit ∧ r.close .exit false = { r with loops := ls })) ∧
  ∀ (s : State) (c : Nat), Whole s → s.latch.active = true → s.latch.todo = [] → c = s.latch.core → Clean s (c / 2) →
    ∃ t, step s = .next t ∧ t.latch = Latch.none ∧ SameBytes s t ∧ t.parts = s.parts ∧ (∀ d, d ≠ c → t.core d = s.core d) ∧
      (s.latch.ended = true → (t.core c).status = .ended ∧ (t.core c).endAt = some (s.endTime c) ∧
        Scheduled t (s.endTime c) rankAfter (.endArrival c (s.endTime c))) ∧
      (s.latch.ended = false → s.latch.tret.isSome = true → (t.core c).hm = false ∧ (t.core c).due = s.now + 8) ∧
      (s.latch.ended = false → s.latch.tret = none → s.latch.follow = none → BundleLeaves s (t.core c).regs ∧ NextBundle s (t.core c) ∧
        (t.core c).status = (s.core c).status ∧ (t.core c).waits = s.latch.waits ∧ (t.core c).due = s.now + 1 + s.latch.hold ∧
        (s.latch.waits = [] → (s.core c).gsize = 0 ∨ (s.core c).pos = 0 →
          Scheduled t ((t.core c).due + t.nextWait c) rankIssue (.bundleIssue c (s.core c).gen none)) ∧
        ∀ m ∈ s.members c, ∃ kg o, Scheduled t (s.now + (s.core m).pos) rankIssue (.bundleIssue m (s.core m).gen
          (some (.run s.latch.addr kg (t.core c).regs.loops o (s.link.setWidth 32) s.latch.taken)))) ∧
      ∀ a kg ls o n tk, s.latch.ended = false → s.latch.tret = none → s.latch.follow = some (.run a kg ls o n tk) →
        (t.core c).regs.loops = ls ∧ (t.core c).regs.exts = s.latch.given ∧
          (t.core c).regs.xfer = tk.map fun b => { target := b, origin := s.latch.addr }

/-- R31. The stage advance that R27 invokes turns back each ring by one place, so that v_n is named v_(n+1) next; each stage predicate and each
write in flight to one moves one rung up, out of p15, and p8 receives f; nothing else changes. -/
def Obligations.StageAdvance : Prop :=
  ∀ (r : Regs) (f : Bool),
    (∃ rv rw p fl, r.advance f = { r with rrbv := rv, rrbw := rw, p := p, flights := fl } ∧
      (0 < r.rotv → rv = (r.rrbv + 8 * r.rotv - 1) % (8 * r.rotv)) ∧ (r.rotv = 0 → rv = r.rrbv) ∧
      (0 < r.rotw → rw = (r.rrbw + 8 * r.rotw - 1) % (8 * r.rotw)) ∧ (r.rotw = 0 → rw = r.rrbw) ∧
      (∀ j, j < 8 → p.getLsbD j = r.p.getLsbD j) ∧ p.getLsbD 8 = f ∧
      (∀ j, 1 ≤ j → j ≤ 7 → p.getLsbD (8 + j) = r.p.getLsbD (8 + j - 1)) ∧
      ∀ g, g ∈ fl ↔ (g ∈ r.flights ∧ ∀ n, g.dest = .reg (.p n) → n < 8) ∨
        ∃ h ∈ r.flights, ∃ n, h.dest = .reg (.p n) ∧ 8 ≤ n ∧ n < 15 ∧ g = { h with dest := .reg (.p (n + 1)) }) ∧
    (∀ n, r.rrbv < 8 * r.rotv → n + 1 < 8 * r.rotv → (r.advance f).phys .v (n + 1) = r.phys .v n) ∧
    (∀ n, r.rrbw < 8 * r.rotw → n + 1 < 8 * r.rotw → (r.advance f).phys .w (n + 1) = r.phys .w n) ∧
    ∀ (l : Loop) (ls : List Loop), r.loops = l :: ls →
      r.close (.body true) false = { r.advance true with loops := { l with count := l.count - 1, index := l.index + 1 } :: ls } ∧
      r.close .drain false = { r.advance false with loops := { l with index := l.index + 1 } :: ls, epicnt := r.epicnt - 1 }

/-- R32, R106-R109. CSRR, CSRW, CSRS, CSRC and ROTSET complete on every CSR of Table 1.7 and take 0x01 on every other number: the old
contents go to the destination, and the new contents are written when the bundle ends. -/
def Obligations.CsrAccess : Prop :=
  (∀ (s : State) (d : BitVec 5) (n : BitVec 12), Issuing s → InTable17 n.toNat →
    Ends (.csrr d n) s fun t => Writes s t 0 1 (.k d.toNat) (low64 (s.csrRead s.latch.core n.toNat))) ∧
  (∀ (i : Instr) (s : State) (d : BitVec 5) (n : BitVec 12) (new : Word → Word), csrNew? i s = some (d, n, new) → Issuing s →
    (InTable17 n.toNat → Ends i s fun t => ∃ u, Writes s u 0 1 (.k d.toNat) (low64 (s.csrRead s.latch.core n.toNat)) ∧
      t = { u with latch := { s.latch with
        csrs := s.latch.csrs ++ [{ num := n.toNat, val := new (s.csrRead s.latch.core n.toNat) }] } }) ∧
    (¬ InTable17 n.toNat → Trapped i s 0x01 s.latch.word (slotIndex s))) ∧
  (∀ (s : State) (d : BitVec 5) (n : BitVec 12), ¬ InTable17 n.toNat → Trapped (.csrr d n) s 0x01 s.latch.word (slotIndex s)) ∧
  ∀ (s : State) (imm : BitVec 32), Issuing s → Ends (.rotset imm) s fun t => t = { s with latch := { s.latch with csrs := s.latch.csrs ++
    [{ num := 0x032, val := BitVec.ofNat 64 (imm.toNat / 2 ^ 8 % 2 ^ 7 * 2 ^ 16 + imm.toNat % 2 ^ 7) }, { num := 0x030, val := 0 },
      { num := 0x031, val := 0 }, { num := 0x033, val := BitVec.ofNat 64 (imm.toNat / 2 ^ 16 % 2 ^ 16) }] } }

/-- R30, R32, Tables 1.7 and 1.8. What each CSR reads after a write of any value: the writable fields of the value, and the old contents of
a read-only register or field; no other CSR changes, but that ROTSZ reduces the two ring bases modulo their new regions. -/
def Obligations.CsrReadsWhatWasWritten : Prop :=
  ∀ (s : State) (c n : Nat) (v : Word), Table.wf Core.idle s.cores = true →
    (∀ w, csrStored (s.core c).regs n v = some w → (s.onCore c fun x => { x with regs := x.regs.csrWrite n v }).csrRead c n = w) ∧
    (csrStored (s.core c).regs n v = none → n ≠ 0x055 → (s.core c).regs.csrWrite n v = (s.core c).regs) ∧
    ((s.onCore c fun x => { x with regs := x.regs.csrWrite 0x055 v }).csrRead c 0x055 =
      BitVec.ofNat 64 ((if (s.core c).hm = true then 2 else 0) + v.toNat % 2)) ∧
    (let t := s.onCore c fun x => { x with regs := x.regs.csrWrite 0x032 v }
     t.csrRead c 0x030 = BitVec.ofNat 64 (ringAt (min (v.toNat % 2 ^ 7) 64) (s.core c).regs.rrbv) ∧
       t.csrRead c 0x031 = BitVec.ofNat 64 (ringAt (min (v.toNat / 2 ^ 16 % 2 ^ 7) 64) (s.core c).regs.rrbw)) ∧
    ∀ k, InTable17 k → k ≠ n → (n = 0x032 → k ≠ 0x030 ∧ k ≠ 0x031) →
      (s.onCore c fun x => { x with regs := x.regs.csrWrite n v }).csrRead c k = s.csrRead c k

/-- R110, R113, R114. TRAP and BRK raise a precise trap on their own bundle, with the cause, the bundle's address and the immediate recorded and
nothing else of the core changed. In handler mode TRET, TRET.skip and ESC complete, and outside it each takes 0x01. -/
def Obligations.SoftwareTrapsAndHandlerForms : Prop :=
  ∀ (s : State) (n : BitVec 32),
    (Table.wf Core.idle s.cores = true → ∀ e ∈ [(Instr.trap n, 0x28), (Instr.brk n, 0x29)], Ends e.1 s fun t => t.latch = Latch.none ∧
      TrapState (t.core s.latch.core).regs s.latch.addr { cause := e.2, t0 := n.toNat, t1 := 0, t2 := 0, imp := false } ∧
      sameRegisters (t.core s.latch.core).regs s.me.regs ∧ SameTileBytes s t) ∧
    (s.me.hm = false → Trapped .tret s 0x01 s.latch.word (slotIndex s) ∧ Trapped .tretSkip s 0x01 s.latch.word (slotIndex s) ∧
      Trapped (.esc n) s 0x01 s.latch.word (slotIndex s)) ∧
    (s.me.hm = true →
      Runs .tret s { s with latch := { s.latch with tret := some false } } ∧
      Runs .tretSkip s { s with latch := { s.latch with tret := some true } } ∧
      (Table.wf Core.idle s.cores = true → Ends (.esc n) s fun t => t.latch = Latch.none ∧ (t.core s.latch.core).status ≠ .running ∧
        (t.core s.latch.core).regs = s.me.regs ∧ SameTileBytes s t))

/-- R348-R351, R354. Taking a trap in program mode writes the trap state, saves the pending extensions, transfer and waits, enters handler mode
at the cause's slot 16 cycles on, and leaves every register, every other core and every byte as it is; a double trap, and cause 0x18,
write the trap state and stop the core. -/
def Obligations.TakingATrap : Prop :=
  (∀ (s : State) (c : Nat) (a : CodeAddr) (t : TrapInfo), Table.wf Core.idle s.cores = true → t.cause ≠ 0x18 → (s.core c).hm = false →
    ∃ u, s.takeTrap c a t = u ∧ TrapState (u.core c).regs a t ∧ sameRegisters (u.core c).regs (s.core c).regs ∧
      (u.core c).hm = true ∧ (u.core c).status = (s.core c).status ∧
      (u.core c).regs.exts = [] ∧ (u.core c).regs.xfer = none ∧ (u.core c).waits = [] ∧
      (u.core c).savedExts = (s.core c).regs.exts ∧ (u.core c).savedXfer = (s.core c).regs.xfer ∧
      (u.core c).savedWaits = (s.core c).waits ∧ (u.core c).pending = [] ∧
      (t.cause < 0x80 → (u.core c).pc = (s.core c).thvec + BitVec.ofNat 32 (4 * t.cause)) ∧
      (∃ e ∈ u.agenda, e.at_ = s.now + 16 ∧ e.ev = .handlerEntry c (u.core c).gen) ∧
      (∀ d, d ≠ c → u.core d = s.core d) ∧ SameBytes s u) ∧
  ∀ (s : State) (c : Nat) (a : CodeAddr) (t : TrapInfo), Table.wf Core.idle s.cores = true → (s.core c).hm = true ∨ t.cause = 0x18 →
    TrapState ((s.takeTrap c a t).core c).regs a t ∧ ((s.takeTrap c a t).core c).status ≠ .running ∧
    sameRegisters ((s.takeTrap c a t).core c).regs (s.core c).regs ∧ SameTileBytes s (s.takeTrap c a t)

/-- R113, R181, R353. TRET goes back to TPC with the extensions and the transfer that the trap saved, eight cycles on; TRET.skip goes to the
bundle after, without extensions, or to the transfer's target. Both resume every wait that the trap saved, to trap 16 × BOUND cycles
beyond the eight.
What TRET.skip does with a pending transfer is the model's reading (log entry 23). -/
def Obligations.ReturnFromAHandler : Prop :=
  ∀ (s : State) (c : Nat), Table.wf Core.idle s.cores = true → (s.core c).gsize = 0 → (s.tile (c / 2)).errors = [] →
    (let u := (s.leaveHandler c false).core c
     u.hm = false ∧ u.pc = (s.core c).regs.tpc ∧ u.regs.exts = (s.core c).savedExts ∧ u.regs.xfer = (s.core c).savedXfer ∧
       u.due = s.now + 8 ∧ u.served = true ∧ u.entry = true ∧
       u.waits = ((s.core c).savedWaits.map fun w => { w with again := true, limit := some (s.now + 8 + 16 * w.bound + 1) }) ∧
       sameRegisters u.regs (s.core c).regs) ∧
    (let u := (s.leaveHandler c true).core c
     u.hm = false ∧ u.regs.exts = [] ∧ u.due = s.now + 8 ∧ u.entry = true ∧ sameRegisters u.regs (s.core c).regs ∧
       ((s.core c).savedXfer = none → u.pc = (s.nextAddr c (s.core c).regs.tpc).1) ∧
       u.waits = ((s.core c).savedWaits.map fun w => { w with again := true, limit := some (s.now + 8 + 16 * w.bound + 1) }) ∧
       (∀ x, (s.core c).savedXfer = some x → u.pc = x.target)) ∧
    ∀ skip, SameBytes s (s.leaveHandler c skip)

/-- R94. PSET is to write bit n of ka into pn for n from 1 to 15, one cycle on; PGET delivers the predicates with bit 0 at 1 and
bits [63:16] zero. Both complete in every state, and nothing else changes. -/
def Obligations.PredicateTransfers : Prop :=
  ∀ (s : State) (r : BitVec 5), Issuing s →
    Ends (.pset r) s (fun t => OnlyInFlight s t ∧ t.me.pending = s.me.pending ∧ t.latch = s.latch ∧
      Launches s t ((List.range 15).map fun i => flight s 0 1 (.p (i + 1)) (if (s.k r).getLsbD (i + 1) then 1 else 0))) ∧
    ∃ v : Word, (∀ n, n < 64 → v.getLsbD n = (decide (n = 0) || decide (n < 16) && s.me.regs.p.getLsbD n)) ∧
      Ends (.pget r) s fun t => Writes s t 0 1 (.k r.toNat) (low64 v)

/-- R187, R183, R109. TICK, SCYC, PHASE and LKSTAT complete in every state and deliver, one cycle on, the values at the issue cycle.
R188: SLEEPT asks for issue to be held until the first cycle on which TICK is t or later, under the correction that has begun; past 2^24
ticks it takes trap 0x0F. R411: TADJ arms the correction.
What SLEEPT does where a correction leaves its tick out is the model's reading (log entry 44). -/
def Obligations.TimeReadsAndSleep : Prop :=
  ∀ (s : State) (d a : BitVec 5), Issuing s →
    Ends (.tick d) s (fun t => Writes s t 0 1 (.k d.toNat) (low64 (BitVec.ofNat 64 (s.tickAt s.now)))) ∧
    Ends (.scyc d) s (fun t => Writes s t 0 1 (.k d.toNat) (low64 (BitVec.ofNat 64 ((s.now - s.me.relAt) % 2 ^ 32)))) ∧
    Ends (.phase d) s (fun t => Writes s t 0 1 (.k d.toNat) (low64 (BitVec.ofNat 64 (s.me.phase % 2 ^ 32)))) ∧
    Ends (.lkstat d) s (fun t => Writes s t 0 1 (.k d.toNat) (low64 s.me.lkstat)) ∧
    Runs .tadj s (if (s.partOf s.latch.core).hdr.gcount = 0 then s else { s with tadj := true }) ∧
    ((s.k a).toNat ≤ s.tick.toNat + 1 → s.latch.hold = 0 → s.me.sleepTo = none → Runs (.sleept a) s s) ∧
    ((s.k a).toNat ≤ s.tick.toNat + 2 ^ 24 → Runs (.sleept a) s
      { s with latch := { s.latch with hold := max s.latch.hold (sleepCycles s (s.k a).toNat) },
               cores := Table.set Core.idle s.cores s.latch.core
                 { s.me with sleepTo := if sleepCycles s (s.k a).toNat = 0 then none else some (s.k a).toNat } }) ∧
    (SoundTime s → s.tick.toNat + 1 < (s.k a).toNat → (s.k a).toNat ≤ s.tick.toNat + 2 ^ 24 →
      (s.k a).toNat ≤ s.tickAt (s.now + 1 + sleepCycles s (s.k a).toNat) ∧
        (0 < sleepCycles s (s.k a).toNat → s.tickAt (s.now + sleepCycles s (s.k a).toNat) < (s.k a).toNat)) ∧
    (s.tick.toNat + 2 ^ 24 < (s.k a).toNat → Trapped (.sleept a) s 0x0F (8 * 2 ^ 4) (s.k a).toNat)

/-- R180, R181, R231. A LOCK completes in every phase and mode: the core waits for a release that it has not observed, and its arrival with
its vote, ROUND and WIN is put on its way unless a PSIG has arrived before it. Where that arrival has been made already, the wait traps
16 × BOUND cycles beyond the latency of the lock (R181); otherwise its limit comes with its arrival. R189: END completes when its pending work fits its
bound, and takes 0x1B otherwise.
How a bound is counted is the model's reading (log entries 9 and 15); that a sheaf reduction which a member has still to join, and a SEND,
OSEND or quay form of END's own bundle that waits, count as work whose completion is not fixed is its choice (log entry 42). -/
def Obligations.LocksAndEnd : Prop :=
  (∀ (i : Instr) (s : State) (v : Vote) (round win : Bool) (b : BitVec 18) (pid : Nat), lockOf? i s = some (v, round, win, b) →
    Live s → s.me.part = some pid →
    Ends i s fun t => OnlyCore s t s.latch.core ∧
      (HasArrived (memberOf s pid 0) →
        Holds s t 0 b.toNat (limitAfter s ((s.part pid).latency (round || s.scopeRound pid)) b.toNat) (.lock (memberOf s pid 0).seen round)) ∧
      (¬ HasArrived (memberOf s pid 0) → Holds s t 0 b.toNat none (.lock (memberOf s pid 0).seen round)) ∧
      (¬ HasArrived (memberOf s pid 0) → s.me.arriving = none →
        t.me = { s.me with arriving := some { time := 0, vote := v, round := round, win := win, ended := false } } ∧
        Scheduled t s.now rankAfter (.delayedArrival s.latch.core s.me.gen)) ∧
      (HasArrived (memberOf s pid 0) ∨ s.me.arriving ≠ none → t.me = s.me)) ∧
  ∀ (s : State) (b : BitVec 18),
    (s.endOpen s.latch.core = false → s.endTime s.latch.core ≤ s.now + 16 * b.toNat →
      Runs (.endProg b) s { s with latch := { s.latch with ended := true } }) ∧
    (s.endOpen s.latch.core = false → s.now + 16 * b.toNat < s.endTime s.latch.core →
      Trapped (.endProg b) s 0x1B 0 (s.endTime s.latch.core - s.now)) ∧
    (s.endOpen s.latch.core = true → Trapped (.endProg b) s 0x1B 0 0xFFFFFFFF)

/-- R228-R232. The phaser forms complete in either phase on a phaser that may be named: what PREG and PDROP make of the registration, when
PSIG arrives and when it has no effect, and which PWAITs wait and until when, 64 + 16 × BOUND cycles from their issue or their member's
arrival, whichever is later; a form that comes between a release and its observation acts as if before that release (R230). On another phaser each takes 0x01.
How a bound is counted is the model's reading (log entry 9); that a core's own forms go by the mode it has observed is too (log
entry 15). -/
def Obligations.PhaserForms : Prop :=
  (∀ (i : Instr) (s : State) (ph : BitVec 6) (mode : PhMode) (pid : Nat), pregMode? i = some (ph, mode) → ph ≠ 0 → Usable s ph →
    s.me.part = some pid →
      ((memberOf s pid ph).view = some mode → Runs i s s) ∧
      (Unjoined s pid ph → Ends i s fun t =>
        Registered s t pid ph
          { mode := some mode, view := some mode, pending := none, seen := (phaserOf s pid ph).epoch, arr := (phaserOf s pid ph).epoch }) ∧
      ((memberOf s pid ph).view ≠ some mode → ¬ Unjoined s pid ph → ¬ Lags s pid ph → Ends i s fun t =>
        Registered s t pid ph { memberOf s pid ph with pending := some (some mode) }) ∧
      ((memberOf s pid ph).view ≠ some mode → Lags s pid ph → ∃ u,
        Registered s u pid ph { memberOf s pid ph with mode := some mode, pending := none } ∧
          Runs i s (u.checkRelease pid ph.toNat))) ∧
  (∀ (s : State) (ph : BitVec 6) (pid : Nat), Usable s ph → s.me.part = some pid →
    ((memberOf s pid ph).view = none → (ph ≠ 0 → Runs (.pdrop ph) s s) ∧ Runs (.psig ph) s s ∧ ∀ b, Runs (.pwait ph b) s s) ∧
    ((memberOf s pid ph).view = some .wo ∨ HasArrived (memberOf s pid ph) → Runs (.psig ph) s s) ∧
    (ph ≠ 0 → (memberOf s pid ph).view ≠ none →
      (¬ Lags s pid ph → ¬ Signals (memberOf s pid ph) ∨ HasArrived (memberOf s pid ph) → Ends (.pdrop ph) s fun t =>
        Registered s t pid ph { memberOf s pid ph with pending := some none }) ∧
      (¬ Lags s pid ph → Signals (memberOf s pid ph) → ¬ HasArrived (memberOf s pid ph) → ∃ u,
        Registered s u pid ph { memberOf s pid ph with pending := some none } ∧
          Runs (.pdrop ph) s (u.arrive s.latch.core ph.toNat Arrival.plain)) ∧
      (Lags s pid ph → ∃ u, Registered s u pid ph { memberOf s pid ph with mode := none, pending := none } ∧
        Runs (.pdrop ph) s (u.checkRelease pid ph.toNat))) ∧
    (SeesItSignal (memberOf s pid ph) → ¬ HasArrived (memberOf s pid ph) → ph ≠ 0 →
      Runs (.psig ph) s (s.arrive s.latch.core ph.toNat Arrival.plain)) ∧
    (SeesItSignal (memberOf s pid ph) → ¬ HasArrived (memberOf s pid ph) → ph = 0 → s.me.arriving = none → Live s →
      Ends (.psig ph) s fun t => OnlyCore s t s.latch.core ∧ t.latch = s.latch ∧ t.me = { s.me with arriving := some Arrival.plain } ∧
        Scheduled t s.now rankAfter (.delayedArrival s.latch.core s.me.gen)) ∧
    (ph = 0 → s.me.arriving ≠ none → Runs (.psig ph) s s) ∧
    ∀ b : BitVec 20,
      ((memberOf s pid ph).view = some .so → Runs (.pwait ph b) s s) ∧
      ((memberOf s pid ph).view = some .sw → ¬ HasArrived (memberOf s pid ph) → (ph = 0 → s.me.arriving = none) →
        Runs (.pwait ph b) s s) ∧
      (((memberOf s pid ph).view = some .wo ∨ (memberOf s pid ph).view = some .sw ∧
          (HasArrived (memberOf s pid ph) ∨ ph = 0 ∧ s.me.arriving ≠ none)) →
        Ends (.pwait ph b) s fun t => OnlyLatch s t ∧
          (ph = 0 ∧ s.me.arriving ≠ none → Holds s t 4 b.toNat none (.phaser 0 (memberOf s pid 0).seen)) ∧
          (¬ (ph = 0 ∧ s.me.arriving ≠ none) → Holds s t 4 b.toNat
            (some (max s.now (s.arrivedAt (phaserOf s pid ph) s.latch.core) + 64 + 16 * b.toNat + 1))
            (.phaser ph.toNat (memberOf s pid ph).seen)))) ∧
  ∀ (s : State) (ph : BitVec 6) (b : BitVec 20), ¬ Usable s ph →
    ∀ i ∈ [Instr.pregSw ph, .pregSo ph, .pregWo ph, .pdrop ph, .psig ph, .pwait ph b], Trapped i s 0x01 s.latch.word (slotIndex s)

/-- R176. An arrival at a phaser is recorded at issue less POS with what it carries; once it is the last of a partition phaser's counted
members, the release is due 64 cycles after the latest of the arrivals, and before that none is. -/
def Obligations.ArrivalsAndReleases : Prop :=
  ∀ (s : State) (c pid ph : Nat) (a : Arrival), Whole s → (s.core c).part = some pid → ph ≠ 0 → (s.phaser pid ph).release = none →
    ∃ x : Phaser, x = (s.arrive c ph a).phaser pid ph ∧
      Table.get none x.arrivals c = some { a with time := s.now - (s.core c).pos } ∧
      (∀ d, d ≠ c → Table.get none x.arrivals d = Table.get none (s.phaser pid ph).arrivals d) ∧
      HasArrived (Table.get Member.none x.members c) ∧
      ((∃ d, Signals (Table.get Member.none x.members d) ∧ Table.get none x.arrivals d = none) → x.release = none) ∧
      ((∃ d, Signals (Table.get Member.none x.members d)) →
        (∀ d, Signals (Table.get Member.none x.members d) → Table.get none x.arrivals d ≠ none) →
        ∃ n, x.release = some (n + 64) ∧ Scheduled (s.arrive c ph a) (n + 64) rankRelease (.phaserRelease pid ph none) ∧
          (∀ d e, Table.get none x.arrivals d = some e → e.time ≤ n) ∧ ∃ d e, Table.get none x.arrivals d = some e ∧ e.time = n)

/-- R115, R135. In an exchange phase and program mode every form of the M, V and W slots, XCOPY and EXT among them, takes 0x03 with the word and
the slot, but for an LDACC that core 1 of a split tile may not issue at all. -/
def Obligations.VectorFormsNeedAComputePhase : Prop :=
  ∀ (i : Instr) (s : State), (s.latch.slot = .m ∧ wfM i = true ∨ (s.latch.slot = .v ∨ s.latch.slot = .w) ∧ wfV s.latch.slot i = true) →
    NotInExchange s → (∀ m, i = .ldacc m → s.me.split = false ∨ s.me.coreNo ≠ 1) →
      Trapped i s 0x03 s.latch.word (slotIndex s)

/-- R222-R227. The channel forms complete: XMOVI and XADDI in either phase; SEND, RECV, SENDR, RECVR and CHST in an exchange phase on an
entry of their own that suits them. A SEND whose window admits its flits sends them, one cycle apart; a RECV or RECVR that has its
flits changes nothing; in a windowed phase either waits otherwise, at most 16 × BOUND cycles (R185), in a timed one it traps; the phase is
that which the core has observed (R172). On an entry that suits it each takes 0x03
outside an exchange phase, and on another core's entry or one that does not suit it 0x01.
The cycle on which a contribution's flit is read is the model's reading (log entry 14). -/
def Obligations.ChannelForms : Prop :=
  (∀ (s : State) (d a : BitVec 4) (imm : BitVec 32), Issuing s →
    Ends (.xmovi d imm) s (fun t => Writes s t 0 1 (.x d.toNat) (low64 (s.imm32 imm))) ∧
    Ends (.xaddi d a imm) s fun t => Writes s t 0 1 (.x d.toNat) (low64 (BitVec.ofInt 64 ((s.x a).toInt + (s.imm32 imm).toInt)))) ∧
  (∀ (s : State) (ch : BitVec 8) (xs : BitVec 4) (b : BitVec 20) (n src off : Nat), Live s → n = flits s ch xs →
    src = (s.x xs).toNat % 2 ^ 24 → off = (s.x xs).toNat / 2 ^ 48 % 2 ^ 16 → SendSound s ch src n off →
    ((countOf s ch).infl + n ≤ routeWin (entryOf s ch) →
      Ends (.send ch xs b) s fun t => OnlyTile s t (s.latch.core / 2) ∧ SameBytes s t ∧
        countOf t ch = { countOf s ch with sent := (countOf s ch).sent + n, infl := (countOf s ch).infl + n } ∧
        (∃ due, (t.tile (s.latch.core / 2)).outs =
          (s.tile (s.latch.core / 2)).outs ++ [{ chan := ch.toNat, issue := s.now, left := n, due := due }]) ∧
        ∀ k, k < n → ∃ f : Flit, Scheduled t (s.now + 1 + k) rankSample (.flitLinkEntry f) ∧ f.kind = .fragment ∧ f.data = none ∧
          f.addr = src + 128 * k ∧ f.k = k ∧ f.dest = (ownPart s).abs (routeDest (entryOf s ch)) ∧ f.entry = routePeer (entryOf s ch) ∧
          f.mapver = s.mapver ∧
          f.daddr = routeBase (s.route f.dest f.entry) + 128 * (off + k) ∧ f.hops = pathOf (entryOf s ch) (s.latch.core / 2) f.dest ∧
          f.sched = s.now + 4 + pathLatency f.hops + k) ∧
    (routeWin (entryOf s ch) < (countOf s ch).infl + n → s.me.windowed = true →
      Ends (.send ch xs b) s fun t => OnlyLatch s t ∧ Holds s t 4 b.toNat (limitAfter s 0 b.toNat) (.send ch.toNat src n off)) ∧
    (routeWin (entryOf s ch) < (countOf s ch).infl + n → s.me.windowed = false →
      TrappedWith (.send ch xs b) s 0x07 ch.toNat (countOf s ch).infl n)) ∧
  (∀ (i : Instr) (s : State) (ch : BitVec 8) (xs : BitVec 4) (b : BitVec 20) (w : WaitFor), NeedSound s ch xs →
    i = .recv ch xs b ∧ w = .recv ch.toNat (flits s ch xs) ∧ routeMode (entryOf s ch) = 2 ∨
      i = .recvr ch xs b ∧ w = .recvr ch.toNat (flits s ch xs) ∧ ReceivesTree s ch →
    (flits s ch xs ≤ arrivedFlits s ch → Runs i s s) ∧
    (arrivedFlits s ch < flits s ch xs → s.me.windowed = true → Ends i s fun t => OnlyLatch s t ∧ Holds s t 4 b.toNat (limitAfter s 0 b.toNat) w) ∧
    (arrivedFlits s ch < flits s ch xs → s.me.windowed = false →
      TrappedWith i s 0x06 ch.toNat (arrivedFlits s ch % 2 ^ 16 + flits s ch xs * 2 ^ 16) (routeDest (entryOf s ch)))) ∧
  (∀ (i : Instr) (s : State) (rop : Nat) (ch : BitVec 8) (xs : BitVec 4), sendr? i = some (rop, ch, xs) → Live s →
    SendrSound s rop ch ((s.x xs).toNat % 2 ^ 24) →
    ((countOf s ch).contrib = none → Ends i s fun t => OnlyTile s t (s.latch.core / 2) ∧ SameBytes s t ∧
      countOf t ch = { countOf s ch with
        sent := (countOf s ch).sent + routeLen (entryOf s ch), contrib := some (s.now, (s.x xs).toNat % 2 ^ 24) } ∧
      Scheduled t (s.now + 1) rankSample (.treeMerge (s.latch.core / 2) ch.toNat 0 none)) ∧
    ((countOf s ch).contrib ≠ none →
      TrappedWith i s 0x07 ch.toNat (routeLen (entryOf s ch)) (routeLen (entryOf s ch)))) ∧
  (∀ (s : State) (ch : BitVec 8) (xs : BitVec 4), Issuing s → OwnEntry s ch → 1 ≤ routeMode (entryOf s ch) →
    routeMode (entryOf s ch) ≤ 4 → Exchanges s →
    ∃ v : Nat, (v % 2 ^ 16 = arrivedFlits s ch % 2 ^ 16 ∧ v / 2 ^ 16 % 2 ^ 16 = min (countOf s ch).sent 0xFFFF ∧
        v / 2 ^ 32 % 2 ^ 8 = (if routeMode (entryOf s ch) = 1 then (countOf s ch).infl % 2 ^ 8 else 0) ∧
        v / 2 ^ 40 % 2 ^ 3 = routeMode (entryOf s ch) ∧ v / 2 ^ 43 = if (countOf s ch).late then 1 else 0) ∧
      Ends (.chst ch xs) s fun t => Writes s t 0 1 (.x xs.toNat) (low64 (BitVec.ofNat 64 v))) ∧
  ∀ (i : Instr) (s : State) (ch : BitVec 8) (suits : Prop), channelForm? i s = some (ch, suits) →
    (OwnEntry s ch → suits → ¬ Exchanges s → Trapped i s 0x03 s.latch.word (slotIndex s)) ∧
    (OtherEntry s ch ∨ ¬ suits → Trapped i s 0x01 s.latch.word (slotIndex s))

/-- R212, R213, R216, R226, R379. A SEND that its window admits puts its first flit before the router, a RECV that has its flits goes on, and CHST
delivers what the entry counts. A flit's entry into the router or a link completes: the router reads 128 bytes of the sender's
store; a link that is free, with fewer than 16 flits ahead and none that goes first, takes the flit, which has a place ahead from then on
and is at the end of the hop its latency later; a link taken this cycle keeps it a cycle. At the end of a path whose tiles no move
holds it is written or merged, and at a tile that is moving it waits until two cycles after the move. R214, R215, R217: a flit's write
changes exactly its 128 bytes and counts one; the last of a fragment schedules its acknowledgement, which lowers the sender's count in
flight while its phase lasts.
How often a flit that finds a full buffer looks again within a cycle is the model's reading (log entry 46), as is that a flit has its place
in a buffer from its entry into the link that leads there (14). -/
def Obligations.FlitsOnTheirWay : Prop :=
  (∀ (s : State) (ch : BitVec 8) (xs : BitVec 4) (b : BitVec 20) (n src off : Nat), Live s → n = flits s ch xs →
    src = (s.x xs).toNat % 2 ^ 24 → off = (s.x xs).toNat / 2 ^ 48 % 2 ^ 16 → SendSound s ch src n off →
    (countOf s ch).infl + n ≤ routeWin (entryOf s ch) → 0 < n →
    Ends (.send ch xs b) s fun t => ∃ f : Flit, Scheduled t (s.now + 1) rankSample (.flitLinkEntry f) ∧ f.src = s.latch.core / 2 ∧
      f.chan = ch.toNat ∧ f.addr = src ∧ f.data = none ∧ f.hops = pathOf (entryOf s ch) f.src f.dest) ∧
  (∀ (s : State) (ch : BitVec 8) (xs : BitVec 4) (b : BitVec 20), NeedSound s ch xs → routeMode (entryOf s ch) = 2 →
    flits s ch xs ≤ arrivedFlits s ch → Runs (.recv ch xs b) s s) ∧
  (∀ (s : State) (ch : BitVec 8) (xs : BitVec 4), Issuing s → OwnEntry s ch → 1 ≤ routeMode (entryOf s ch) →
    routeMode (entryOf s ch) ≤ 4 → Exchanges s → Ends (.chst ch xs) s fun t => ∃ v : Word, v.toNat % 2 ^ 16 = arrivedFlits s ch % 2 ^ 16 ∧
      Writes s t 0 1 (.x xs.toNat) (low64 v)) ∧
  (∀ (s : State) (f : Flit), f.data = none → Clean s f.src →
    Ends (.flitLinkEntry f) s fun t => OnlyLatch s t ∧ t.latch = s.latch ∧
      ∃ g : Flit, g = { f with data := some (BitVec.ofNat 1024 (ofBytes (s.storeBytes f.src f.addr 128))) } ∧
        (f.hops ≠ [] → Scheduled t (s.now + 3) rankLink (.flitLinkEntry g)) ∧
        (f.hops = [] → Scheduled t (s.now + 3) rankLand (.flitLinkEntry { g with waits := false, pass := 0 }))) ∧
  (∀ (s : State) (f : Flit) (d : BitVec 1024) (h : Hop) (rest : List Hop), f.data = some d → f.hops = h :: rest →
    Whole s →
    (LinkTaken s h → Ends (.flitLinkEntry f) s fun t => OnlyLatch s t ∧ t.latch = s.latch ∧
      Scheduled t (s.now + 1) rankLink (.flitLinkEntry { f with waits := true, pass := 0 })) ∧
    (¬ LinkTaken s h → FullAhead s h ∨ Contended s f h → f.pass < 256 → Ends (.flitLinkEntry f) s fun t => OnlyLatch s t ∧ t.latch = s.latch ∧
      Scheduled t s.now rankLink (.flitLinkEntry { f with waits := true, pass := f.pass + 1 })) ∧
    (FullAhead s h → 256 ≤ f.pass → Ends (.flitLinkEntry f) s fun t => OnlyLatch s t ∧ t.latch = s.latch ∧
      Scheduled t (s.now + 1) rankLink (.flitLinkEntry { f with waits := true, pass := 0 })) ∧
    (¬ LinkTaken s h → ¬ FullAhead s h → ¬ Contended s f h → Ends (.flitLinkEntry f) s fun t => Table.get 0 t.links (linkOf h) = s.now + 1 ∧
      (∀ l, l ≠ linkOf h → Table.get 0 t.links l = Table.get 0 s.links l) ∧ t.tiles = s.tiles ∧ t.cores = s.cores ∧
      Table.get 0 t.waiting (aheadOf h) = Table.get 0 s.waiting (aheadOf h) + 1 ∧
      (f.port < 4 → Table.get 0 t.waiting (portKey h.tile f.port) = Table.get 0 s.waiting (portKey h.tile f.port) - 1) ∧
      Scheduled t (s.now + h.lat) (if rest = [] then rankLand else rankLink)
        (.flitLinkEntry { f with hops := rest, port := facing h.dir, waits := false, pass := 0 }))) ∧
  (∀ (s : State) (f : Flit) (d : BitVec 1024), f.data = some d → f.hops = [] →
    (Settled s f ∨ f.waits = true → Ends (.flitLinkEntry f) s fun t => t.tiles = s.tiles ∧ t.cores = s.cores ∧ t.links = s.links ∧
      Scheduled t s.now (endRank f) (atEnd f)) ∧
    ((s.tile f.dest).move = .holding → f.waits = false → Ends (.flitLinkEntry f) s fun t => OnlyLatch s t ∧ t.latch = s.latch ∧
      ∃ at_ port, (s.tile f.dest).moveEnd + 2 ≤ at_ ∧
        Scheduled t at_ rankLand (.flitLinkEntry { f with waits := true, port := port }))) ∧
  (∀ (s : State) (f : Flit) (d : BitVec 1024), f.data = some d → Whole s →
    Ends (.flitWrite f) s fun t => OnlyTiles s t ∧ StoreGets s t f.dest f.daddr 128 d.toNat ∧
      (t.chan f.dest f.entry).arr = (s.chan f.dest f.entry).arr + 1 ∧
      ((t.chan f.dest f.entry).late = true ↔ (s.chan f.dest f.entry).late = true ∨ f.sched < s.now) ∧
      (∀ o ∈ (s.tile f.src).outs, o.chan = f.chan → o.issue = f.issue → o.left = 1 →
        (∀ p ∈ (s.tile f.src).outs, p.chan = f.chan → p.issue = f.issue → p = o) → Settled s f →
        Scheduled t (s.now + routeElat (s.route f.src f.chan)) rankLand (.fragmentAck f.src f.chan (f.k + 1) f.phase))) ∧
  ∀ (s : State) (tile entry n phase : Nat),
    ((s.core (s.chanCore tile entry)).phase ≠ phase → Runs (.fragmentAck tile entry n phase) s s) ∧
    ((s.core (s.chanCore tile entry)).phase = phase → Runs (.fragmentAck tile entry n phase) s
      (s.onChan tile entry fun c => { c with infl := c.infl - n }))

/-- R219, R220, R225. A first SENDR of a phase puts its contribution's first flit before the merge, and a RECVR that has its flits goes on. An input
of a tree's flit completes: an own contribution is 128 bytes of the store, read from the contribution's source; while some input is
missing the flit is kept, and with the last one the merge of all inputs in the order N, E, S, W, local is ready two cycles after the
latest of them, sent to the parent or written at the root; a lone contribution is delivered with its NaNs canonical (R72). R218: the
result's write changes its 128 bytes, and a tree with DOWN sends it on to the children.
The cycle on which a contribution's flit is read is the model's reading (log entry 14). -/
def Obligations.TreeMergesAndResults : Prop :=
  (∀ (i : Instr) (s : State) (rop : Nat) (ch : BitVec 8) (xs : BitVec 4), sendr? i = some (rop, ch, xs) → Live s →
    SendrSound s rop ch ((s.x xs).toNat % 2 ^ 24) → (countOf s ch).contrib = none → Ends i s fun t =>
      (countOf t ch).contrib = some (s.now, (s.x xs).toNat % 2 ^ 24) ∧
      Scheduled t (s.now + 1) rankSample (.treeMerge (s.latch.core / 2) ch.toNat 0 none)) ∧
  (∀ (s : State) (ch : BitVec 8) (xs : BitVec 4) (b : BitVec 20), NeedSound s ch xs → ReceivesTree s ch →
    flits s ch xs ≤ arrivedFlits s ch → Runs (.recvr ch xs b) s s) ∧
  (∀ (s : State) (tile entry k : Nat) (input : Option (Nat × BitVec 1024)) (p : Part) (own : Nat × Nat × BitVec 1024)
    (ins : List (Nat × Nat × BitVec 1024)), Whole s → (input = none → Clean s tile) → p = s.partOf (s.chanCore tile entry) →
    own = (match input with
      | none => (4, s.now + 3, BitVec.ofNat 1024 (ofBytes (s.storeBytes tile
          ((((s.chan tile entry).contrib).map Prod.snd).getD 0 + 128 * k) 128)))
      | some (port, d) => (port, s.now, d)) →
    ins = Table.get [] (s.chan tile entry).merges k ++ [own] →
    Ends (.treeMerge tile entry k input) s fun t => OnlyTile s t tile ∧ SameBytes s t ∧
      (input = none → k + 1 < routeLen (s.route tile entry) → Scheduled t (s.now + 1) rankSample (.treeMerge tile entry (k + 1) none)) ∧
      (ins.length ≤ (s.children p tile entry).length → Table.get [] (t.chan tile entry).merges k = ins) ∧
      ((s.children p tile entry).length < ins.length → ∃ (f : Flit) (out : Nat),
        out = (ins.map fun e => e.2.1).foldl max 0 + 2 ∧ f.k = k ∧ f.data = some (foldPorts (routeRop (s.route tile entry)) ins) ∧
        (routeMode (s.route tile entry) = 4 → Scheduled t out rankChannel (.treeResultWrite f) ∧ f.dest = tile ∧ f.entry = entry ∧
          f.daddr = routeBase (s.route tile entry) + 128 * k) ∧
        (routeMode (s.route tile entry) = 3 → Scheduled t out rankLink (.flitLinkEntry f) ∧ f.kind = .up ∧
          f.dest = p.abs (routeDest (s.route tile entry)) ∧ f.hops.length = 1))) ∧
  (∀ (rop c : Nat) (a b : BitVec 1024) (j : Nat),
    (rop = 5 → mergeFlit rop a b = a ^^^ b) ∧
    (rop = 4 → j < 32 → (mergeFlit rop a b).toNat / 2 ^ (32 * j) % 2 ^ 32 =
      (a.toNat / 2 ^ (32 * j) % 2 ^ 32 + b.toNat / 2 ^ (32 * j) % 2 ^ 32) % 2 ^ 32) ∧
    (rop = 0 → j < 32 → (mergeFlit rop a b).toNat / 2 ^ (32 * j) % 2 ^ 32 =
      (roundF .f32 .rne false 0 (sum .rne (decodeF .f32 (a.toNat / 2 ^ (32 * j) % 2 ^ 32)) (decodeF .f32 (b.toNat / 2 ^ (32 * j) % 2 ^ 32))).1).1) ∧
    (rop = 1 → j < 64 → (mergeFlit rop a b).toNat / 2 ^ (16 * j) % 2 ^ 16 =
      (roundF .bf16 .rne false 0 (sum .rne (decodeF .bf16 (a.toNat / 2 ^ (16 * j) % 2 ^ 16)) (decodeF .bf16 (b.toNat / 2 ^ (16 * j) % 2 ^ 16))).1).1) ∧
    (rop = 2 ∨ rop = 3 → j < 32 → (mergeFlit rop a b).toNat / 2 ^ (32 * j) % 2 ^ 32 =
      (roundF .f32 .rne false 0 (fminV (decide (rop = 2)) (decodeF .f32 (a.toNat / 2 ^ (32 * j) % 2 ^ 32))
        (decodeF .f32 (b.toNat / 2 ^ (32 * j) % 2 ^ 32))).1).1) ∧
    (rop = 4 ∨ rop = 5 → foldPorts rop [(4, c, a)] = a) ∧
    (rop = 0 ∨ rop = 2 ∨ rop = 3 → j < 32 → (foldPorts rop [(4, c, a)]).toNat / 2 ^ (32 * j) % 2 ^ 32 =
      if (decodeF .f32 (a.toNat / 2 ^ (32 * j) % 2 ^ 32)).isNan = true then 0x7FC00000 else a.toNat / 2 ^ (32 * j) % 2 ^ 32)) ∧
  ∀ (s : State) (f : Flit) (d : BitVec 1024), f.data = some d → Whole s →
    Ends (.treeResultWrite f) s fun t => OnlyTiles s t ∧ StoreGets s t f.dest f.daddr 128 d.toNat ∧
      (t.chan f.dest f.entry).arr = (s.chan f.dest f.entry).arr + 1 ∧
      ∀ (p : Part) (r : Nat × Nat), p = s.partOf (s.chanCore f.dest f.entry) → r = s.treeRoot p treeFuel f.dest f.entry →
        routeDown (s.route r.1 r.2) = true → ∀ u ∈ s.children p f.dest f.entry, ∃ g : Flit,
          Scheduled t s.now rankLink (.flitLinkEntry g) ∧ g.kind = f.kind ∧ g.data = f.data ∧ g.k = f.k ∧ g.dest = u.2.1 ∧ g.entry = u.2.2 ∧
          g.daddr = routeBase (s.route u.2.1 u.2.2) + 128 * f.k

/-- R240-R242, R249, R293-R300. The stream and slot forms complete in a compute phase on an engine of the core: SCFG writes one field of the
descriptor; SGO and SBIND, on a free engine with a sound descriptor, start a transfer whose first beat is read two cycles on, four more
under IX, and take the trap that the checks of R296 find otherwise; SFREE resets the descriptor and unbinds; SWAIT waits for a transfer
that is not complete; OMCLAIM takes the lowest free slot; OMREL lets a slot drain, at once or when the segment commits.
The readings of log entries 16 and 17 are the model's. -/
def Obligations.StreamAndSlotForms : Prop :=
  (∀ (s : State) (st : BitVec 3) (f : StreamField) (xa : BitVec 4), Live s → OwnEngine s st.toNat → ¬ Exchanges s → RoomFor s 16 →
    Ends (.scfg st f xa) s fun t => OnlyUnit s t ∧ NoWait s t ∧ SameBytes s t ∧ (engineOf t st.toNat).xfer = (engineOf s st.toNat).xfer ∧
      (engineOf t st.toNat).desc.field f.toNat = s.x xa ∧
      (∀ n, n < 8 → n ≠ f.toNat → (engineOf t st.toNat).desc.field n = (engineOf s st.toNat).desc.field n) ∧
      ∀ e, e ≠ st.toNat → engineOf t e = engineOf s e) ∧
  (∀ (i : Instr) (s : State) (st : BitVec 3) (bind : Option (VFile × Nat × Bool)) (b : Binding), Live s → OwnEngine s st.toNat →
    ¬ Exchanges s → Fresh s →
    i = .sgo st ∧ bind = none ∧ b = .sgo ∨
      (∃ file reg, i = .sbind st file reg false ∧ bind = some (file, reg.toNat, false) ∧ b = .input file reg.toNat) ∨
      (∃ file reg, i = .sbind st file reg true ∧ bind = some (file, reg.toNat, true) ∧ b = .output file reg.toNat) →
    (∀ tr, s.streamCause (streamAsked s st bind) = some tr → exec i s = .next (s.trapNow tr)) ∧
    (∀ d fmt, StreamSound s st bind d fmt → RoomFor s 16 →
      Ends i s fun t => OnlyUnit s t ∧ NoWait s t ∧ SameBytes s t ∧ (∀ e, e ≠ st.toNat → engineOf t e = engineOf s e) ∧
        ∃ x : Transfer, engineOf t st.toNat =
            { engineOf s st.toNat with xfer := some x, next := (engineOf s st.toNat).next + 1,
                                       past := if s.me.snaps = [] then [] else (engineOf s st.toNat).all } ∧
          x.id = (engineOf s st.toNat).next ∧ x.core = s.latch.core ∧ x.desc = d ∧ x.fmt = fmt ∧ x.start = s.now ∧
          x.bind = b ∧ x.read = 0 ∧ x.written = 0 ∧ x.beats = (x.desc.packedBytes x.fmt + 63) / 64 ∧
          (x.beats = 0 → x.done = some s.now) ∧ (x.beats ≠ 0 → x.done = none ∧
            ((∀ f r, b ≠ .output f r) → Scheduled t (s.now + 2 + if x.desc.ctl.getLsbD 6 then 4 else 0) rankSample
              (.streamBeat (s.latch.core / 2) st.toNat x.id 0 .read)) ∧
            (∀ f r, b = .input f r → Scheduled t (s.now + 6 + if x.desc.ctl.getLsbD 6 then 4 else 0) rankStream
              (.windowBeatEntry (s.latch.core / 2) st.toNat x.id 0))))) ∧
  (∀ (s : State) (st : BitVec 3), Live s → OwnEngine s st.toNat → ¬ Exchanges s → RoomFor s 16 → EngineOk (engineOf s st.toNat) →
    Ends (.sfree st) s fun t => OnlyUnit s t ∧ NoWait s t ∧ SameBytes s t ∧ (engineOf t st.toNat).desc = Desc.reset ∧
      (engineOf t st.toNat).isBound = false ∧ (∀ e, e ≠ st.toNat → engineOf t e = engineOf s e) ∧
      (∀ x, (engineOf s st.toNat).xfer = some x → x.bind = .sgo → (engineOf t st.toNat).xfer = some x)) ∧
  (∀ (s : State) (st : BitVec 3) (b : BitVec 20), OwnEngine s st.toNat → ¬ Exchanges s →
    ((∀ x, (engineOf s st.toNat).shown = some x → x.done ≠ none) → Runs (.swait st b) s s) ∧
    (∀ x, (engineOf s st.toNat).shown = some x → x.done = none →
      Ends (.swait st b) s fun t => OnlyLatch s t ∧ Holds s t 4 b.toNat (limitAfter s 0 b.toNat) (.stream st.toNat x.id))) ∧
  (∀ (s : State) (d : BitVec 4), Live s → OwnArray s → ¬ Exchanges s →
    ((∀ n, n < 32 → (mine s).slot n ≠ .free) → Ends (.omclaim d) s fun t => Writes s t 0 1 (.x d.toNat) (low64 0xFFFFFFFF)) ∧
    (∀ n, n < 32 → (mine s).slot n = .free → (∀ m, m < n → (mine s).slot m ≠ .free) →
      Ends (.omclaim d) s fun t => ∃ u, Writes u t 0 1 (.x d.toNat) (low64 (BitVec.ofNat 64 n)) ∧
        u = s.setTile (s.latch.core / 2) { mine s with slots := Table.set .free (mine s).slots n .claimed })) ∧
  (∀ (s : State) (a : BitVec 4), Live s → OwnArray s → ¬ Exchanges s →
    ((mine s).claims (s.x a).toNat = true → (s.x a).toNat < 32 → s.me.segOpen.getD 0 = 0 →
      Ends (.omrel a) s fun t => OnlyUnit s t ∧ NoWait s t ∧ SameBytes s t ∧ (mine t).slot (s.x a).toNat = .draining ∧
        Scheduled t (s.now + 1) rankAfter (.slotDrainEnd (s.latch.core / 2) (s.x a).toNat)) ∧
    ((mine s).claims (s.x a).toNat = true → (s.x a).toNat < 32 → s.me.segOpen.getD 0 ≠ 0 → RoomFor s 16 →
      Ends (.omrel a) s fun t => OnlyUnit s t ∧ NoWait s t ∧ SameBytes s t ∧ (mine t).slot (s.x a).toNat = .claimed ∧
        (mine t).claims (s.x a).toNat = false) ∧
    (31 < (s.x a).toNat → TrappedWith (.omrel a) s 0x0B (s.x a).toNat 2 0x41) ∧
    ((s.x a).toNat < 32 → (mine s).claims (s.x a).toNat = false → TrappedWith (.omrel a) s 0x0B (s.x a).toNat
      (if (mine s).slot (s.x a).toNat = .free ∧ (s.x a).toNat ∉ (mine s).freed then 0 else 1) 0x41)) ∧
  ∀ (s : State) (st : BitVec 3) (f : StreamField) (xa : BitVec 4) (b : BitVec 20), ¬ OwnEngine s st.toNat →
    ∀ i ∈ [Instr.scfg st f xa, .sfree st, .sgo st, .swait st b], Trapped i s 0x01 s.latch.word (slotIndex s)

/-- R295-R298. An SGO or an SBIND to an input on a free engine with a sound descriptor has its first beat read two cycles on, four more under
IX; one to an output waits for the first value. A beat completes: 64 bytes of the packed side, or what is left, are
read from the source, decoded whole with the first beat that carries any of a unit, and in four cycles written at the destination, or put
into the window; the next beat is read a cycle later, a window's at most eight ahead of the beats popped. R302: under IX the units lie
where the words of the list, sampled four cycles before, put them; a unit that fails its tests stops the transfer before its beat with a
pending 0x0A. R241: a draining slot is free once nothing refers to it.
The readings of log entries 16 and 17 are the model's. -/
def Obligations.StreamBeats : Prop :=
  (∀ (s : State) (st : BitVec 3) (file : VFile) (reg : BitVec 10) (d : Desc) (fmt at_ : Nat), Live s → OwnEngine s st.toNat →
    ¬ Exchanges s → Fresh s → RoomFor s 16 → d.units ≠ 0 → at_ = s.now + 2 + (if d.ix = true then 4 else 0) →
    (StreamSound s st none d fmt → Ends (.sgo st) s fun t =>
      Scheduled t at_ rankSample (.streamBeat (s.latch.core / 2) st.toNat (engineOf s st.toNat).next 0 .read)) ∧
    (StreamSound s st (some (file, reg.toNat, false)) d fmt → Ends (.sbind st file reg false) s fun t =>
      Scheduled t at_ rankSample (.streamBeat (s.latch.core / 2) st.toNat (engineOf s st.toNat).next 0 .read) ∧
      Scheduled t (at_ + 4) rankStream (.windowBeatEntry (s.latch.core / 2) st.toNat (engineOf s st.toNat).next 0)) ∧
    (StreamSound s st (some (file, reg.toNat, true)) d fmt → Ends (.sbind st file reg true) s fun t =>
      ∃ x, (engineOf t st.toNat).xfer = some x ∧ x.bind = .output file reg.toNat ∧ x.pushed = 0 ∧ x.done = none)) ∧
  (∀ (s : State) (n e b : Nat) (x : Transfer), Whole s → (s.engine n e).xfer = some x → ReadsNext s x b → (s.tile n).errors = [] →
    64 * b < x.desc.packedBytes x.fmt → (∀ m bs, x.carry = some (m, bs) → bs.length = x.desc.packedUnit x.fmt) →
    ∃ y : Transfer, Indexed s n b x y ∧
      (BeatFits s y false b → x.bind = .sgo → Ends (.streamBeat n e x.id b .read) s fun t => OnlyTile s t n ∧ SameBytes s t ∧
        (∃ z, (t.engine n e).xfer = some z ∧ z.read = b + 1 ∧ z.written = x.written ∧ z.index = y.index ∧
          z.carry = if x.desc.dec = true then some (unitOf x b (packedIn x b - 1), decodedUnit s n y (unitOf x b (packedIn x b - 1))) else none) ∧
        Scheduled t (s.now + 4) rankStream (.streamBeat n e x.id b (.write ((beatOf s n y b).map fun w =>
          ((placeOf y true w.1).toNat + w.2.1, w.2.2)))) ∧
        (b + 1 < x.beats → Scheduled t (s.now + 1) rankSample (.streamBeat n e x.id (b + 1) .read))) ∧
      (∀ f r, BeatFits s y false b → x.bind = .input f r → Ends (.streamBeat n e x.id b .read) s fun t => OnlyTile s t n ∧ SameBytes s t ∧
        (∃ z, (t.engine n e).xfer = some z ∧ z.read = b + 1 ∧ (b + 1 = x.beats → z.done = some s.now) ∧ z.index = y.index ∧
          z.fetched = x.fetched ++ [BitVec.ofNat 512 (ofBytes ((beatOf s n y b).map fun w => w.2.2))]) ∧
        (b + 1 < x.beats → b + 1 < x.popped + 8 → Scheduled t (s.now + 1) rankSample (.streamBeat n e x.id (b + 1) .read))) ∧
      (∀ m, ¬ Known x.desc false → CarriedBy x b m → ¬ UnitFits s y false m → (∀ k, CarriedBy x b k → k < m → UnitFits s y false k) →
        Ends (.streamBeat n e x.id b .read) s fun t => SameBytes s t ∧
          (∃ z, (t.engine n e).xfer = some z ∧ z.fault = true ∧ z.beats = b ∧ z.read = b) ∧
          ∃ p : Pending, (t.core x.core).pending = (s.core x.core).pending ++ [p] ∧ p.due = s.now ∧ p.info.cause = 0x0A ∧
            p.info.t0 = (BitVec.ofInt 64 (placeOf y false m)).toNat ∧ p.info.t2 = e ∧ p.info.imp = true)) ∧
  (∀ (s : State) (n e b : Nat) (x : Transfer), Whole s → (s.engine n e).xfer = some x → x.desc.ix = true → x.fault = false →
    s.halted x.core = false → (s.tile n).errors = [] →
    (x.desc.pside = false → x.read < x.beats → x.unbound = false →
      Ends (.streamBeat n e x.id b .index) s fun t => OnlyTile s t n ∧ SameBytes s t ∧
        Scheduled t (s.now + 1) rankSample (.streamBeat n e x.id b .index) ∧
        ∃ y, (t.engine n e).xfer = some y ∧ y = { x with index := y.index } ∧
          ∀ k m, x.read ≤ k → k < x.read + 5 → CarriedBy x k m → ¬ HasWord x (level3 x.desc m) →
            Table.get 0 y.index (16 * level3 x.desc m + s.now % 8) =
              ofBytes ((List.range 4).map fun i => s.storeByte n (x.desc.ibase + 4 * level3 x.desc m + i))) ∧
    (x.desc.pside = true → Ends (.streamBeat n e x.id b .index) s fun t => OnlyTile s t n ∧ SameBytes s t ∧
      ∃ y, (t.engine n e).xfer = some y ∧ Indexed s n b x y)) ∧
  (∀ (s : State) (n e b : Nat) (x : Transfer) (bytes : List (Nat × Byte)), Whole s → (s.engine n e).xfer = some x → x.fault = false →
    BeatFits s x true b → sideKind x.desc.dst ≤ 1 →
    Ends (.streamBeat n e x.id b (.write bytes)) s fun t => OnlyTiles s t ∧ DstGets s t n x.desc.dst bytes ∧
      ∃ y, (t.engine n e).xfer = some y ∧ y.written = b + 1 ∧ (y.done = some s.now ↔ b + 1 = x.beats ∨ x.done = some s.now)) ∧
  (∀ (s : State) (n e b : Nat) (x : Transfer), Whole s → (s.engine n e).xfer = some x →
    (x.entered = b → b < x.beats → x.unbound = false → b < x.popped + 4 →
      Ends (.windowBeatEntry n e x.id b) s fun t => OnlyTile s t n ∧ SameBytes s t ∧
        (t.engine n e).xfer = some { x with entered := b + 1, window := x.window ++ x.fetched.take 1, fetched := x.fetched.drop 1 } ∧
        (b + 1 < x.beats → b + 1 < x.popped + 4 → Scheduled t (s.now + 1) rankStream (.windowBeatEntry n e x.id (b + 1)))) ∧
    (x.popped + 4 ≤ b → Runs (.windowBeatEntry n e x.id b) s s)) ∧
  (∀ (s : State) (n e b : Nat) (v : Vec) (x : Transfer), Whole s → (s.engine n e).xfer = some x → x.fault = false → BeatFits s x true b →
    sideKind x.desc.dst ≤ 1 →
    Ends (.windowOutputWrite n e x.id b v) s fun t => OnlyTilesUndo s t ∧
      DstGets s t n x.desc.dst ((List.range (packedIn x b)).map fun i =>
        ((placeOf x true (unitOf x b i)).toNat + (64 * b + i) % x.desc.packedUnit x.fmt, BitVec.ofNat 8 (v.toNat / 2 ^ (8 * i)))) ∧
      ∃ y, (t.engine n e).xfer = some y ∧ y.written = b + 1 ∧ (b + 1 = x.beats → y.done = some s.now)) ∧
  ∀ (s : State) (n k : Nat), Whole s →
    ((s.tile n).slot k = .draining → (s.tile n).referred s.now k = false →
      Ends (.slotDrainEnd n k) s fun t => t = s.setTile n { s.tile n with slots := Table.set .free (s.tile n).slots k .free,
                                                                          freed := k :: (s.tile n).freed.filter fun m => decide (m ≠ k) } ∧
        (t.tile n).slot k = .free) ∧
    ((s.tile n).slot k ≠ .draining ∨ (s.tile n).referred s.now k = true → Runs (.slotDrainEnd n k) s s)

/-- R304, R309, R310, R312-R317, Table 14.6. The array forms complete in a compute phase: MCFG writes one field of the shadow; MGO on a
sound shadow commits a nest that starts two cycles on or when the array is free, or waits while a committed nest has not
started; MWAIT and MSWAP wait for what is committed; MCLR clears a tile of the working bank behind what is committed; MRED joins the
sheaf's reduction, which a gang's member gives its rows to from the next cycle on, members without a gang once all four have come; MSTAT reads the flags. On core 1 of a split tile the array
forms take 0x01.
Which bank a committed nest or an MCLR writes is the model's reading (log entry 17). -/
def Obligations.ArrayForms : Prop :=
  (∀ (s : State) (lvl f xa : BitVec 4), Live s → OwnArray s → ¬ Exchanges s →
    Ends (.mcfg lvl f xa) s fun t => t = s.setTile (s.latch.core / 2) { mine s with array := { arrayOf s with
      shadow := Shadow.put (arrayOf s).shadow (shadowKey lvl.toNat f.toNat) (s.x xa) } }) ∧
  (∀ (s : State) (lra lrb : Bool) (b : BitVec 20) (g : Nat), Live s → OwnArray s → ¬ Exchanges s → Fresh s →
    NestSound s (arrayOf s).shadow →
    RoomFor s (16 * (Shadow.releases (arrayOf s).shadow lra lrb).length) →
    (NestQueued s → Ends (.mgo lra lrb b) s fun t => OnlyUnit s t ∧ mine t = mine s ∧ WaitsFor s t 0 b.toNat (.nest lra lrb)) ∧
    (¬ NestQueued s → g = max (s.now + 2) (arrayOf s).freeAt →
      Ends (.mgo lra lrb b) s fun t => OnlyUnit s t ∧ NoWait s t ∧ SameBytes s t ∧
        (∃ n : Nest, (arrayOf t).nests = (arrayOf s).nests ++ [n] ∧ n.id = (arrayOf s).next ∧ n.shadow = (arrayOf s).shadow ∧
          n.bank0 = (arrayOf s).vis ∧ n.commit = s.now ∧ n.start = g ∧ n.sampled = 0 ∧
          (arrayOf t).freeAt = g + n.steps * n.time) ∧
        (arrayOf t).vis = (arrayOf s).vis ∧ (arrayOf t).shadow = (arrayOf s).shadow ∧
        Scheduled t g rankSample (.nestStart (s.latch.core / 2) (arrayOf s).next) ∧
        ∀ k ∈ Shadow.releases (arrayOf s).shadow lra lrb, (mine t).claims k = false)) ∧
  (∀ (s : State) (lra lrb : Bool) (b : BitVec 20) (tr : TrapInfo), OwnArray s → ¬ Exchanges s → s.me.replay = [] →
    Shadow.shapeCause (arrayOf s).shadow = some tr → exec (.mgo lra lrb b) s = .next (s.trapNow tr)) ∧
  (∀ (s : State) (b : BitVec 20), Live s → OwnArray s → ¬ Exchanges s →
    (ArrayIdle s → Runs (.mwait b) s s) ∧
    (¬ ArrayIdle s → Ends (.mwait b) s fun t => OnlyLatch s t ∧ Holds s t 4 b.toNat (limitAfter s 0 b.toNat) .array) ∧
    Ends (.mswap b) s fun t => OnlyUnit s t ∧ WaitsFor s t 0 b.toNat (.swap (arrayOf s).next) ∧
      mine t = { mine s with array := { arrayOf s with
        swaps := (arrayOf s).swaps ++ [(arrayOf s).next], next := (arrayOf s).next + 1 } } ∧
      Scheduled t (s.now + 1) rankStore (.bankSwap (s.latch.core / 2) (arrayOf s).next)) ∧
  (∀ (s : State) (acc : BitVec 4), Live s → OwnArray s → ¬ Exchanges s → Fresh s →
    Ends (.mclr acc) s fun t => OnlyUnit s t ∧ NoWait s t ∧ SameBytes s t ∧
      ∃ k : Clear, (arrayOf t).clears = (arrayOf s).clears ++ [k] ∧ k.acc = acc.toNat ∧ k.bank0 = (arrayOf s).vis ∧
        k.due = max (s.now + 4) (if (arrayOf s).lastW = 0 then 0 else (arrayOf s).lastW + 1) ∧
        Scheduled t k.due rankQuay (.mclrPerform (s.latch.core / 2) acc.toNat k.id)) ∧
  (∀ (s : State) (acc : BitVec 4) (b : BitVec 20) (r : Mred), Live s → OwnArray s → ¬ Exchanges s → Fresh s →
    r = Table.get Mred.none s.mreds (sheafOf (s.latch.core / 2)) → (∀ e ∈ r.arrived, e.1 ≠ sheafPlace (s.latch.core / 2)) →
    r.arrived.length ≤ 3 →
    Ends (.mred acc b) s fun t => t.tiles = s.tiles ∧ t.me.regs = s.me.regs ∧
      Table.get (0, 0, 0) (Table.get Mred.none t.mreds (sheafOf (s.latch.core / 2))).arrived (sheafPlace (s.latch.core / 2)) =
        (s.latch.core, acc.toNat, s.now - s.me.pos) ∧
      (s.me.gsize ≠ 0 → Scheduled t (s.now + 1) rankSample
        (.mredMerge (sheafOf (s.latch.core / 2)) (64 * sheafPlace (s.latch.core / 2)) none)) ∧
      (r.arrived.length < 3 → WaitsFor s t 200 b.toNat (.mred none acc.toNat)) ∧
      (r.arrived.length = 3 → ∃ q last, WaitsFor s t 200 b.toNat (.mred (some (q, last)) acc.toNat) ∧ s.now - s.me.pos ≤ q ∧
        (∀ e ∈ r.arrived, e.2.2.2 ≤ q) ∧ (q = s.now - s.me.pos ∨ ∃ e ∈ r.arrived, e.2.2.2 = q) ∧
        (s.me.gsize = 0 → Scheduled t (max (s.now + 1) (q + 1)) rankSample
            (.mredMerge (sheafOf (s.latch.core / 2)) (64 * sheafPlace (s.latch.core / 2)) none) ∧
          ∀ e ∈ r.arrived, Scheduled t (max (s.now + 1) (q + 1)) rankSample
            (.mredMerge (sheafOf (s.latch.core / 2)) (64 * e.1) none)))) ∧
  (∀ (s : State) (d : BitVec 4), Live s → ¬ Exchanges s → OwnArray s →
    ∃ v : Word, (∀ i, i < 47 → (v.getLsbD i = true ↔ mstatBit s i)) ∧ (∀ i, 47 ≤ i → v.getLsbD i = false) ∧
      Ends (.mstat d) s fun t => Writes s t 0 1 (.x d.toNat) (low64 v)) ∧
  ∀ (s : State) (lvl f xa acc : BitVec 4) (lra lrb : Bool) (b : BitVec 20), ¬ OwnArray s →
    ∀ i ∈ [Instr.mcfg lvl f xa, .mgo lra lrb b, .mwait b, .mswap b, .mclr acc, .mred acc b],
      Trapped i s 0x01 s.latch.word (slotIndex s)

/-- R246, R307-R310, R313, R314, R316. An MGO on a sound shadow has its nest start two cycles on or when the array is free. The array's own steps
complete: a nest's start is followed by its first step; a step samples its operands and updates its accumulators a step's time and six
cycles later, at most one bank's bytes; MCLR clears 16,384 bytes of its bank, unless a later nest has found them cleared; a swap is made
once nothing committed is unwritten, and is tried again a cycle later until then; a member's rows are sampled three cycles apart, and the
fourth sample of a row brings its write at q + POS0 + 10 + 3r; and a row of a sheaf reduction is the sum (m0 + m1) + (m2 + m3), wrapped or
rounded each time to FP32, in member 0's accumulators.
Which bank a committed nest or an MCLR writes is the model's reading (log entry 17). -/
def Obligations.ArraySteps : Prop :=
  (∀ (s : State) (lra lrb : Bool) (b : BitVec 20), Live s → OwnArray s → ¬ Exchanges s → Fresh s → NestSound s (arrayOf s).shadow →
    RoomFor s (16 * (Shadow.releases (arrayOf s).shadow lra lrb).length) → ¬ NestQueued s →
    Ends (.mgo lra lrb b) s fun t => Scheduled t (max (s.now + 2) (arrayOf s).freeAt) rankSample
      (.nestStart (s.latch.core / 2) (arrayOf s).next)) ∧
  (∀ (s : State) (n id : Nat) (x : Nest), Whole s → (s.tile n).array.nest id = some x →
    (x.steps ≠ 0 → Ends (.nestStart n id) s fun t => OnlyLatch s t ∧ t.latch = s.latch ∧
      Scheduled t s.now rankSample (.arrayStep n id 0 none)) ∧
    (x.steps = 0 → Ends (.nestStart n id) s fun t => OnlyTile s t n ∧ SameBytes s t ∧ (t.tile n).array.nest id = none)) ∧
  (∀ (s : State) (n id j : Nat) (x : Nest), Whole s → (s.tile n).array.nest id = some x → s.halted x.core = false → Clean s n →
    Ends (.arrayStep n id j none) s fun t => OnlyTile s t n ∧ SameBytes s t ∧
      (∃ o : StepOperands, Scheduled t (s.now + x.time + 6) rankStore (.arrayStep n id j (some o)) ∧
        o.rows.length = (Shadow.step x.shadow j).mr ∧ o.cols.length = (Shadow.step x.shadow j).nc ∧
        ∀ r e, r < (Shadow.step x.shadow j).mr → e < (Shadow.pair x.shadow).2.1 →
          (o.rows.getD r []).getD e none = if e < (Shadow.step x.shadow j).ke then
            some (s.fetchElem n (Shadow.step x.shadow j).aslot.toNat (Shadow.step x.shadow j).aoff.toNat (Shadow.afmt x.shadow)
              (Shadow.apitch x.shadow) (Shadow.ta x.shadow) r e) else none) ∧
      (j + 1 ≠ x.steps → Scheduled t (s.now + x.time) rankSample (.arrayStep n id (j + 1) none))) ∧
  (∀ (s : State) (n id j : Nat) (x : Nest) (o : StepOperands), Whole s → (s.tile n).array.nest id = some x →
    x.nantrap = false ∨ Shadow.int x.shadow = true → Clean s n →
    Ends (.arrayStep n id j (some o)) s fun t => OnlyTile s t n ∧ (∀ m, m ≠ n → t.tile m = s.tile m) ∧
      (t.tile n).store = (s.tile n).store ∧ (t.tile n).om = (s.tile n).om ∧ (t.tile n).array.wrote = s.now ∧
      (x.bank0 = true → (t.tile n).acc1 = (s.tile n).acc1) ∧ (x.bank0 = false → (t.tile n).acc0 = (s.tile n).acc0) ∧
      (j + 1 = x.steps → (t.tile n).array.nest id = none)) ∧
  (∀ (s : State) (n acc id : Nat) (k : Clear), Whole s → (s.tile n).array.clears.find? (fun e => decide (e.id = id)) = some k →
    Ends (.mclrPerform n acc id) s fun t => OnlyTile s t n ∧
      (∀ a, Memory.read (if k.bank0 then (t.tile n).acc0 else (t.tile n).acc1) a =
        if k.seen = false ∧ acc * 16384 ≤ a ∧ a < acc * 16384 + 16384 then 0
        else Memory.read (if k.bank0 then (s.tile n).acc0 else (s.tile n).acc1) a) ∧
      (if k.bank0 then (t.tile n).acc1 = (s.tile n).acc1 else (t.tile n).acc0 = (s.tile n).acc0) ∧
      (t.tile n).store = (s.tile n).store ∧ (t.tile n).om = (s.tile n).om) ∧
  (∀ (s : State) (n id : Nat), Whole s → id ∈ (s.tile n).array.swaps →
    ((s.tile n).array.nests = [] → (s.tile n).array.clears = [] → (s.tile n).array.wrote < s.now →
      Ends (.bankSwap n id) s fun t => SameBytes s t ∧ t = s.setTile n { s.tile n with array := { (s.tile n).array with
        vis := !(s.tile n).array.vis, swaps := (s.tile n).array.swaps.filter fun m => decide (m ≠ id) } }) ∧
    (((s.tile n).array.nests ≠ [] ∨ (s.tile n).array.clears ≠ [] ∨ s.now ≤ (s.tile n).array.wrote) →
      Ends (.bankSwap n id) s fun t => OnlyLatch s t ∧ t.latch = s.latch ∧ Scheduled t (s.now + 1) rankStore (.bankSwap n id))) ∧
  (∀ (s : State) (n m row q : Nat) (r : Mred) (c acc : Nat), r = Table.get Mred.none s.mreds n → m < 4 → row < 64 →
    (∃ e ∈ r.arrived, e.1 = m) → c = (Table.get (0, 0, 0) r.arrived m).1 → acc = (Table.get (0, 0, 0) r.arrived m).2.1 →
    q = r.q.getD (Table.get (0, 0, 0) r.arrived m).2.2 → s.halted c = false → Clean s (c / 2) →
    Ends (.mredMerge n (64 * m + row) none) s fun t => t.tiles = s.tiles ∧ t.cores = s.cores ∧
      (row < 63 → Scheduled t (max (s.now + 1) (q + (s.core c).pos + 4 + 3 * row)) rankSample (.mredMerge n (64 * m + row + 1) none)) ∧
      ((∀ k, k < 4 → k ≠ m → ∃ e ∈ r.rows, e.1 = row * 4 + k) → ∃ data : List (List Nat),
        Scheduled t (q + (s.core (Table.get (0, 0, 0) r.arrived 0).1).pos + 10 + 3 * row) rankQuay (.mredMerge n row (some data)) ∧
        data.length = 4 ∧ data.getD m [] = (List.range 64).map fun k => Memory.nat (s.tile (c / 2)).visible (accByte acc row + 4 * k) 4)) ∧
  ∀ (s : State) (n row : Nat) (data : List (List Nat)) (acc : Nat), Whole s → row < 64 →
    acc = (Table.get (0, 0, 0) (Table.get Mred.none s.mreds n).arrived 0).2.1 →
    Ends (.mredMerge n row (some data)) s fun t => (∀ m, m ≠ n → t.tile m = s.tile m) ∧ t.cores = s.cores ∧
      (∀ c, c < 64 → Shadow.int (s.tile n).array.shadow = true → Memory.nat (t.tile n).visible (accByte acc row + 4 * c) 4 =
        ((data.getD 0 []).getD c 0 + (data.getD 1 []).getD c 0 + (data.getD 2 []).getD c 0 + (data.getD 3 []).getD c 0) % 2 ^ 32) ∧
      (∀ c, c < 64 → Shadow.int (s.tile n).array.shadow = false → Memory.nat (t.tile n).visible (accByte acc row + 4 * c) 4 =
        sumF32 (sumF32 ((data.getD 0 []).getD c 0) ((data.getD 1 []).getD c 0))
          (sumF32 ((data.getD 2 []).getD c 0) ((data.getD 3 []).getD c 0))) ∧
      (∀ a, a < accByte acc row ∨ accByte acc row + 256 ≤ a →
        Memory.read (t.tile n).visible a = Memory.read (s.tile n).visible a) ∧ (t.tile n).store = (s.tile n).store

/-- R307, R314, R84, R85, Table 3.7. The update of a step completes, and leaves in each element of its rows and columns what its K-steps make of
the element in ascending order, an element that an MCLR before the nest has still to clear counting as zero; every other byte of the
bank is as before, or cleared with it, and the other bank is as before. -/
def Obligations.MatrixUpdate : Prop :=
  ∀ (s : State) (n id j : Nat) (x : Nest) (o : StepOperands) (p : Machine.Step), Whole s → (s.tile n).array.nest id = some x →
    x.nantrap = false ∨ Shadow.int x.shadow = true → p = Shadow.step x.shadow j → Sampled x.shadow p o →
    0 ≤ p.tile → p.tile ≤ 15 → 0 ≤ p.row → p.row + p.mr ≤ 64 → p.nc ≤ 64 → Clean s n →
    Ends (.arrayStep n id j (some o)) s fun t =>
      (∀ r c a, r < p.mr → c < p.nc → a = accByte p.tile.toNat (p.row.toNat + r) + 4 * c →
        (¬ ToClear s n x a → Memory.nat (bankOf (t.tile n) x.bank0) a 4 =
          stepLeaves x.shadow p o r c (Memory.nat (bankOf (s.tile n) x.bank0) a 4)) ∧
        (ToClear s n x a → Memory.nat (bankOf (t.tile n) x.bank0) a 4 = stepLeaves x.shadow p o r c 0)) ∧
      (∀ a, (∀ r c, r < p.mr → c < p.nc → a < accByte p.tile.toNat (p.row.toNat + r) + 4 * c ∨
          accByte p.tile.toNat (p.row.toNat + r) + 4 * c + 4 ≤ a) →
        (¬ ToClear s n x a → Memory.read (bankOf (t.tile n) x.bank0) a = Memory.read (bankOf (s.tile n) x.bank0) a) ∧
        (ToClear s n x a → Memory.read (bankOf (t.tile n) x.bank0) a = 0)) ∧
      bankOf (t.tile n) (!x.bank0) = bankOf (s.tile n) (!x.bank0)

/-- R318-R328, R330-R333. The quay forms complete in an exchange phase on an edge tile: an operation whose operands R325 to R327 accept joins
its queue, where that has room, with the next serial, its handle counts it, x(XD) receives the serial and the promised tick, and its
first unit is scheduled; without room the form waits, and a gather of more rows than it samples at once waits in its queue. QMARK orders the
queue's reads behind its writes so far; QTPOP takes a token and QWAIT asks for a serial, each delivering the poison count and the completion
tick, or waiting, 16 × BOUND cycles beyond the promise at most (R185); QWAIT also waits for what its queue was to write before (R273). An
operation with an operand at fault takes its trap; outside an exchange phase each form takes 0x03, and on another tile 0x14.
The corner cycles are the model's reading (log entry 18), and so is what a QWAIT waits for (log entry 49). -/
def Obligations.QuayForms : Prop :=
  (∀ (i : Instr) (s : State) (o : QuayOp) (k : QuayTask) (cause : Option TrapInfo) (kind : QuayKind) (units : Nat),
    quayForm? i s = some (o, k, cause) → quayUnits? i s = some (kind, units) → Live s → Exchanges s → HasQuay s → Fresh s →
    (∀ tr, cause = some tr → exec i s = .next (s.trapNow tr)) ∧
    (QuaySound i s → QuayRoom s o → rowsOf i s ≤ 16 → Ends i s fun t => OnlyQuay s t ∧ SameBytes s t ∧
      t.latch = { s.latch with hold := max s.latch.hold ((rowsOf i s + 15) / 16) } ∧
      ∃ (k1 : QuayTask) (r : RegId), (quayOf t o.q.toNat).tasks = (quayOf s o.q.toNat).tasks ++ [k1] ∧ k1.kind = kind ∧ k1.units = units ∧
        k1.core = s.latch.core ∧ k1.store = endOf s o ∧ k1.handle = handleIn s o ∧
        k1.va = (handleNamed s o).base + offsetIn s o ∧ k1.serial = (quayOf s o.q.toNat).serial ∧
        k1.idx = (List.range (rowsOf i s)).map (indexOf s o) ∧
        (quayOf t o.q.toNat).serial = ((quayOf s o.q.toNat).serial + 1) % 256 ∧
        Table.get none (quayOf t o.q.toNat).status k1.serial = some { id := k1.id, promise := k1.promise, done := none } ∧
        (handleNamed t o).count = (handleNamed s o).count + 1 ∧
        r = .x o.xd.toNat ∧ t.me.regs.flights = s.me.regs.flights ++
          (if r.zero = true then [] else [flight s 0 1 r (low64 (promiseOf s k1.serial k1.promise))]) ∧
        (units = 0 → k1.promise = s.now + 1 ∧ Scheduled t k1.promise rankQuay (.quayComplete (s.latch.core / 2) o.q.toNat k1.serial)) ∧
        (units ≠ 0 → s.now < k1.promise ∧ ∃ c, Scheduled t c rankSample (.quayUnit (s.latch.core / 2) o.q.toNat k1.serial 0 none)) ∧
        (o.tw = true → tokensOf t o.tid.toNat = (tokensOf s o.tid.toNat).tail ++
          if o.tp = true then [{ id := k1.id, promise := k1.promise, pushed := none }] else []) ∧
        (o.tw = false → tokensOf t o.tid.toNat = tokensOf s o.tid.toNat ++
          if o.tp = true then [{ id := k1.id, promise := k1.promise, pushed := none }] else [])) ∧
    (QuaySound i s → ¬ QuayRoom s o → Ends i s fun t => SameBytes s t ∧ t.me = s.me ∧ t.tiles = s.tiles ∧
      (handleNamed t o).count = (handleNamed s o).count + 1 ∧ ∃ k1 : QuayTask,
        WaitsFor s t ((rowsOf i s + 15) / 16) o.bound.toNat (.quay o.q.toNat k1 o.xd.toNat) ∧ k1.start = none ∧ (kind ≠ .gath → k1 = k) ∧
        (kind = .gath → k1.idx = (List.range (min 16 (rowsOf i s))).map (indexOf s o))) ∧
    (QuaySound i s → QuayRoom s o → 16 < rowsOf i s → Ends i s fun t => SameBytes s t ∧ t.me = s.me ∧
      (handleNamed t o).count = (handleNamed s o).count + 1 ∧ ∃ k1 : QuayTask,
        (quayOf t o.q.toNat).tasks = (quayOf s o.q.toNat).tasks ++ [k1] ∧
        WaitsFor s t ((rowsOf i s + 15) / 16) o.bound.toNat (.quay o.q.toNat k1 o.xd.toNat) ∧ k1.start = some s.now ∧
        k1.kind = kind ∧ k1.units = units ∧ k1.idx = (List.range 16).map (indexOf s o) ∧ k1.serial = (quayOf s o.q.toNat).serial)) ∧
  (∀ (s : State) (q : BitVec 2), Live s → Exchanges s → HasQuay s → Fresh s →
    Ends (.qmark q) s fun t => OnlyQuay s t ∧ NoWait s t ∧ SameBytes s t ∧
      quayOf t q.toNat = { quayOf s q.toNat with markW := (quayOf s q.toNat).wrote, markId := (mine s).issueOrder }) ∧
  (∀ (s : State) (q tid : BitVec 2) (xd : BitVec 4) (b : BitVec 20), Live s → Exchanges s → HasQuay s → Fresh s →
    (tokensOf s tid.toNat = [] → Ends (.qtpop q xd tid b) s fun t => OnlyLatch s t ∧ Holds s t 4 b.toNat (limitAfter s 0 b.toNat) (.token tid.toNat none xd.toNat)) ∧
    (∀ k ks, tokensOf s tid.toNat = k :: ks → Ends (.qtpop q xd tid b) s fun t => tokensOf t tid.toNat = ks ∧ SameBytes s t ∧
      OnlyQuay s t ∧
      (∀ r, k.pushed = some r → NoWait s t ∧ t.me.regs.flights = s.me.regs.flights ++
        (if (RegId.x xd.toNat).zero = true then [] else [flight s 0 1 (.x xd.toNat) (low64 (completionOf s r))])) ∧
      (k.pushed = none → WaitsFor s t (k.promise - s.now) b.toNat (.token tid.toNat (some k) xd.toNat)))) ∧
  (∀ (s : State) (q : BitVec 2) (xd : BitVec 4) (b : BitVec 20) (n : Nat), Issuing s → Exchanges s → HasQuay s →
    n = (s.x xd).toNat / 2 ^ 48 % 2 ^ 8 →
    (Table.get none (quayOf s q.toNat).status n = none → Ends (.qwait q xd b) s fun t => Writes s t 0 1 (.x xd.toNat) (low64 0)) ∧
    (∀ st, Table.get none (quayOf s q.toNat).status n = some st →
      (∀ r, st.done = some r → EarlierWritten s q.toNat st.id →
        Ends (.qwait q xd b) s fun t => Writes s t 0 1 (.x xd.toNat) (low64 (completionOf s r))) ∧
      (∀ r, st.done = some r → ¬ EarlierWritten s q.toNat st.id → Ends (.qwait q xd b) s fun t => OnlyLatch s t ∧
        Holds s t 4 b.toNat (limitAfter s 0 b.toNat) (.serial q.toNat n xd.toNat false)) ∧
      (st.done = none → Ends (.qwait q xd b) s fun t => OnlyLatch s t ∧
        Holds s t 4 b.toNat (limitAfter s (st.promise - s.now) b.toNat) (.serial q.toNat n xd.toNat (decide (s.now ≤ st.promise)))))) ∧
  ∀ (i : Instr) (s : State), (quayForm? i s).isSome = true ∨ (∃ q, i = .qmark q) ∨ (∃ q xd tid b, i = .qtpop q xd tid b) ∨
      (∃ q xd b, i = .qwait q xd b) →
    (¬ Exchanges s → Trapped i s 0x03 s.latch.word (slotIndex s)) ∧
    (Exchanges s → ¬ HasQuay s → Trapped i s 0x14 s.latch.word (slotIndex s))

/-- R250, R258, R261, R323-R333. An operation that R325 to R327 accept has its first unit scheduled when it issues; QMARK, a QTPOP of a pushed
token and a QWAIT for a complete serial go on. The steps of an operation complete: a get's unit is read from the second tier and written into
the tile store 96 cycles on; a put's is read from the store and written 160 cycles on; an atomic's elements are replaced in one
step and what they held goes back; the last unit completes the operation, which frees its entry, records its poison count and cycle,
pushes its token and lets its handle go. A freed handle's slot is free once nothing counts in it; a card that moves a unit to a spare that
it has left keeps its accesses waiting.
The corner cycles are the model's reading (log entry 18), and so is the count of a card's spares (log entry 50). -/
def Obligations.QuayUnits : Prop :=
  (∀ (i : Instr) (s : State) (o : QuayOp) (k : QuayTask) (cause : Option TrapInfo) (kind : QuayKind) (units : Nat),
    quayForm? i s = some (o, k, cause) → quayUnits? i s = some (kind, units) → Live s → Exchanges s → HasQuay s → Fresh s →
    QuaySound i s → QuayRoom s o → Ends i s fun t => ∃ k1 : QuayTask,
      (quayOf t o.q.toNat).tasks = (quayOf s o.q.toNat).tasks ++ [k1] ∧ k1.kind = kind ∧ k1.units = units ∧
      (units ≠ 0 → ∃ c, Scheduled t c rankSample (.quayUnit (s.latch.core / 2) o.q.toNat k1.serial 0 none))) ∧
  (∀ (s : State) (q tid : BitVec 2) (xd : BitVec 4) (b : BitVec 20), Live s → Exchanges s → HasQuay s → Fresh s →
    Ends (.qmark q) s (fun t => (quayOf t q.toNat).markW = (quayOf s q.toNat).wrote ∧ (quayOf t q.toNat).tasks = (quayOf s q.toNat).tasks) ∧
    (∀ k ks r, tokensOf s tid.toNat = k :: ks → k.pushed = some r → Ends (.qtpop q xd tid b) s fun t => tokensOf t tid.toNat = ks) ∧
    (∀ st r, Table.get none (quayOf s q.toNat).status ((s.x xd).toNat / 2 ^ 48 % 2 ^ 8) = some st → st.done = some r →
      EarlierWritten s q.toNat st.id → Ends (.qwait q xd b) s fun t => Writes s t 0 1 (.x xd.toNat) (low64 (completionOf s r)))) ∧
  (∀ (s : State) (n q serial u : Nat) (k : QuayTask) (d : BitVec 512) (pa : Nat), Whole s → (s.quay n q).task serial = some k →
    pa = k.phys (k.unitVa u) →
    (k.kind = .get ∨ k.kind = .gath →
      (MayPerform s n q k pa → k.stop = false → (k.kind = .gath → u / max k.row 1 < k.idx.length) → Ends (.quayUnit n q serial u none) s fun t => OnlyTile s t n ∧ SameBytes s t ∧
        Scheduled t (s.now + 96) rankQuay (.quayUnit n q k.serial u (some (BitVec.ofNat 512 (Memory.nat s.tier pa 64)))) ∧
        ∀ c, k.slots[u + 1]? = some c → Scheduled t (max s.now (c + 96)) rankSample (.quayUnit n q k.serial (u + 1) none)) ∧
      (u < 2 ^ 32 → Ends (.quayUnit n q serial u (some d)) s fun t => OnlyTiles s t ∧ StoreGets s t n (k.store + 64 * u) 64 d.toNat ∧
        (k.left ≤ 1 → Scheduled t s.now rankQuay (.quayComplete n q k.serial)))) ∧
    (k.kind = .put →
      (s.quayHeld n k = false → Clean s n → Ends (.quayUnit n q serial u none) s fun t => OnlyLatch s t ∧ t.latch = s.latch ∧
        Scheduled t (s.now + 160) rankQuay (.quayUnit n q serial u (some (BitVec.ofNat 512
          (ofBytes (s.storeBytes n (k.store + 64 * u) 64))))) ∧
        ∀ c, k.slots[u + 1]? = some c → Scheduled t (max s.now c) rankSample (.quayUnit n q k.serial (u + 1) none)) ∧
      (MayReach s n q k pa → Ends (.quayUnit n q serial u (some d)) s fun t => TierGets s t pa 64 d.toNat ∧ t.cores = s.cores ∧
        (k.left ≤ 1 → Scheduled t s.now rankQuay (.quayComplete n q k.serial))))) ∧
  (∀ (s : State) (n q serial aop : Nat) (k : QuayTask) (d : BitVec 512) (pa : Nat), Whole s → (s.quay n q).task serial = some k →
    k.kind = .atom aop → pa = k.phys k.va → aop < 10 → k.elems ≤ 16 → MayPerform s n q k pa → k.stop = false → Clean s n →
    Ends (.quayUnit n q serial 0 none) s (fun t => OnlyLatch s t ∧ t.latch = s.latch ∧
      Scheduled t (max (s.now + 160) (k.promise - 96)) rankQuay (.quayUnit n q serial 0 (some (BitVec.ofNat 512
        (ofBytes (s.storeBytes n k.store 64)))))) ∧
    Ends (.quayUnit n q serial 0 (some d)) s (fun t => SameTileBytes s t ∧ t.cores = s.cores ∧
      (∀ j, j < k.elems → Memory.nat t.tier (pa + 4 * j) 4 = atomLeaves aop (Memory.nat s.tier (pa + 4 * j) 4)
        (if aop = 6 then lane32 d (8 + j) else lane32 d j) (lane32 d j)) ∧
      (∀ a, a < pa ∨ pa + 4 * k.elems ≤ a → Memory.read t.tier a = Memory.read s.tier a) ∧
      ∃ r : BitVec 512, (∀ j, j < k.elems → lane32 r j = Memory.nat s.tier (pa + 4 * j) 4) ∧
        Scheduled t (s.now + 96) rankQuay (.quayUnit n q k.serial 1 (some r))) ∧
    Ends (.quayUnit n q serial 1 (some d)) s fun t => OnlyTiles s t ∧ StoreGets s t n k.store (4 * k.elems) d.toNat ∧
      (k.left ≤ 1 → Scheduled t s.now rankQuay (.quayComplete n q k.serial))) ∧
  (∀ (s : State) (n q serial : Nat) (k : QuayTask), Whole s → (s.quay n q).task serial = some k →
    Ends (.quayComplete n q serial) s fun t => SameBytes s t ∧ t.cores = s.cores ∧ (t.quay n q).task serial = none ∧
      (∀ j, j ∈ (t.quay n q).tasks ↔ j ∈ (s.quay n q).tasks ∧ j.serial ≠ serial) ∧
      (∀ st, Table.get none (s.quay n q).status serial = some st → st.id = k.id →
        Table.get none (t.quay n q).status serial = some { st with done := some (k.poison, s.now) }) ∧
      (t.handle k.ctx (k.handle / 256)).count = (s.handle k.ctx (k.handle / 256)).count - 1 ∧
      (k.tp = true → ∀ tk ∈ Table.get [] (t.tile n).tokens k.tid, tk.id = k.id → tk.pushed = some (k.poison, s.now)) ∧
      ((s.handle k.ctx (k.handle / 256)).state = .freeing → (s.handle k.ctx (k.handle / 256)).count ≤ 1 →
        Scheduled t (s.now + 1) rankQuay (.handleSlotFreed k.ctx (k.handle / 256)))) ∧
  ∀ (s : State) (ctx slot card delay : Nat), Whole s →
    ((s.handle ctx slot).state = .freeing → (s.handle ctx slot).count = 0 → Ends (.handleSlotFreed ctx slot) s fun t =>
      t = s.setHandle ctx slot { s.handle ctx slot with state := .free } ∧ (t.handle ctx slot).state = .free) ∧
    ((s.handle ctx slot).state ≠ .freeing ∨ (s.handle ctx slot).count ≠ 0 → Runs (.handleSlotFreed ctx slot) s s) ∧
    (card < 40 → Table.get 0 s.cardSpares card < cardSpareUnits card → Ends (.cardSpareMove card delay) s fun t =>
      t = { s with cardSpares := Table.set 0 s.cardSpares card (Table.get 0 s.cardSpares card + 1),
                   cardBusy := Table.set 0 s.cardBusy card (max (Table.get 0 s.cardBusy card) (s.now + delay)) }) ∧
    (card < 40 → cardSpareUnits card ≤ Table.get 0 s.cardSpares card → Runs (.cardSpareMove card delay) s s) ∧
    (40 ≤ card → exec (.cardSpareMove card delay) s = .fault .noSuchUnit)

/-- R336-R341. COLL completes with the tile's next ticket in x(XD): a descriptor at fault gives the ticket outcome 3 and a pending trap, a sound
one joins its collective, which goes on once every participant has come and aborts when a group's expects another topology (R340). CWAIT delivers a ticket's outcome with the count of stale flits, which it clears; it gives outcome 3 for a ticket
that is not outstanding and waits for one that is. Both need an exchange phase.
The free delays and the count of a group's participants are the model's choice (log entry 19). -/
def Obligations.CollectiveForms : Prop :=
  (∀ (s : State) (xa xd : BitVec 4) (r : Region), Live s → Exchanges s → Fresh s → Inside s r ((s.x xa).toNat % 2 ^ 24) 64 64 → r.kind ≤ 2 →
    (16 ≤ (mine s).colls.length → TrappedWith (.coll xa xd) s 0x07 0 16 0)) ∧
  (∀ (s : State) (xa xd : BitVec 4), Live s → Fresh s → CollSound s xa → Ends (.coll xa xd) s fun t => NoWait s t ∧
      (mine t).ticket = ((mine s).ticket + 1) % 256 ∧ t.me.regs.flights = s.me.regs.flights ++
        (if (RegId.x xd.toNat).zero = true then [] else [flight s 0 1 (.x xd.toNat) (low64 (BitVec.ofNat 64 (mine s).ticket))]) ∧
      (∀ tr, s.descCause s.latch.core ((s.x xa).toNat % 2 ^ 24) (descAt s xa) = some tr → SameBytes s t ∧
        Table.get none (mine t).outcomes (mine s).ticket = some (3, s.now) ∧ { due := s.now + 2, info := tr } ∈ t.me.pending ∧
        t.colls = s.colls) ∧
      (s.descCause s.latch.core ((s.x xa).toNat % 2 ^ 24) (descAt s xa) = none → t.me.pending = s.me.pending ∧
        (s.me.part.isSome = true → SameBytes s t ∧
          ∃ e ∈ t.colls, (∃ k ∈ e.2.parts, k.core = s.latch.core ∧ k.ticket = (mine s).ticket ∧ k.desc = descAt s xa) ∧
            (e.2.aborted = none → e.2.stale = false → e.2.parts.length = e.2.members.length →
              ∃ at_, s.now + 2 ≤ at_ ∧ Scheduled t at_ rankSample (.collectiveCommit e.1 0)) ∧
            (e.2.aborted.isSome = true → Scheduled t (s.now + 1) rankColl (.collectiveCommit e.1 (2 ^ 24 * (e.2.parts.length - 1)))) ∧
            (s.colls = [] → descGroup (descAt s xa) = true → descExptop (descAt s xa) ≠ s.topver →
              Scheduled t (s.now + 1) rankColl (.collectiveAbort e.1 1))))) ∧
  (∀ (s : State) (xd : BitVec 4) (b : BitVec 20) (n : Nat), Live s → Exchanges s → n = (s.x xd).toNat % 2 ^ 8 →
    (∀ code w, Table.get none (mine s).outcomes n = some (code, w) → Ends (.cwait xd b) s fun t => ∃ u,
      Writes s u 0 1 (.x xd.toNat) (low64 (outcomeWord (mine s) n code)) ∧ t = u.setTile (s.latch.core / 2) { mine s with stale := 0 }) ∧
    (Table.get none (mine s).outcomes n = none → n ∉ (mine s).colls → Ends (.cwait xd b) s fun t => ∃ u,
      Writes s u 0 1 (.x xd.toNat) (low64 (outcomeWord (mine s) n 3)) ∧ t = u.setTile (s.latch.core / 2) { mine s with stale := 0 }) ∧
    (Table.get none (mine s).outcomes n = none → n ∈ (mine s).colls → Ends (.cwait xd b) s fun t => OnlyLatch s t ∧
      Holds s t 4 b.toNat (limitAfter s 0 b.toNat) (.coll n xd.toNat))) ∧
  ∀ (s : State) (xa xd : BitVec 4) (b : BitVec 20), ¬ Exchanges s →
    Trapped (.coll xa xd) s 0x03 s.latch.word (slotIndex s) ∧ Trapped (.cwait xd b) s 0x03 s.latch.word (slotIndex s)

/-- R337-R341, R354, Table 15.5. A COLL takes the next ticket, and a CWAIT for a ticket with an outcome goes on. The steps of a collective complete:
they sample the ranks' contributions unit by unit, each staged on the same cycle, and lead to the commit cycle at least 64
cycles after the last; from then on each writes a unit of every result, and the last gives the ticket its outcome. A collective with
a stopped participant is abandoned; an abort before the commit zeroes every staging range, a unit a cycle, and with the last of them gives the
ticket its outcome, and writes no result; one after it changes nothing. A tile's engine works for one collective at a time (R269). A sum of INT32 buffers is their sum modulo 2^32, and results of the kinds are the fold, a
rank's segment of it, the concatenation and the root's buffer.
The free delays, the staging bytes and the count of a group's participants are the model's choice (log entry 19). -/
def Obligations.CollectiveSteps : Prop :=
  (∀ (s : State) (xa xd : BitVec 4) (b : BitVec 20), Live s →
    (Fresh s → CollSound s xa → Ends (.coll xa xd) s fun t => (mine t).ticket = ((mine s).ticket + 1) % 256) ∧
    (∀ o, Exchanges s → Table.get none (mine s).outcomes ((s.x xd).toNat % 2 ^ 8) = some o → Ends (.cwait xd b) s fun t =>
      (mine t).stale = 0)) ∧
  (∀ (s : State) (cid : Nat) (x : Coll) (k : CollPart) (ks : List CollPart), Whole s →
    s.coll cid = x → x.parts = k :: ks →
    (∀ u, Running s x → x.commit = false → (u = 0 → x.data = [] ∧ s.engineTaken cid = false) → (∀ j ∈ x.parts, Clean s (j.core / 2)) →
      Ends (.collectiveCommit cid (2 * u)) s fun t => (t.coll cid).data.length = (if u = 0 then x.count else x.data.length) ∧
        (t.coll cid).parts = x.parts ∧ SameBytes s t ∧ Scheduled t s.now rankColl (.collectiveCommit cid (2 * u + 1)) ∧
        ∀ i, i < (if u = 0 then x.count else x.data.length) →
          (t.coll cid).data.getD i [] = x.data.getD i [] ++ s.contribution x k.desc u i) ∧
    (Running s x → x.commit = false → x.data = [] → s.engineTaken cid = true → Ends (.collectiveCommit cid 0) s fun t =>
      OnlyLatch s t ∧ t.latch = s.latch ∧ Scheduled t (s.now + 1) rankSample (.collectiveCommit cid 0)) ∧
    (∀ u, Running s x → x.commit = false → Ends (.collectiveCommit cid (2 * u + 1)) s fun t => t.coll cid = x ∧ OnlyTiles s t ∧
      (∀ m a, (∀ j ∈ x.parts, j.core / 2 = m → a < descStage j.desc + 64 * u ∨ descStage j.desc + 64 * u + 64 ≤ a) →
        Memory.read (t.tile m).store a = Memory.read (s.tile m).store a) ∧
      ((∃ j ∈ x.parts, 64 * (u + 1) < stageSize j.desc x.count) →
        ∃ at_, s.now + 1 ≤ at_ ∧ Scheduled t at_ rankSample (.collectiveCommit cid (2 * (u + 1)))) ∧
      ((∀ j ∈ x.parts, stageSize j.desc x.count ≤ 64 * (u + 1)) →
        ∃ at_, s.now + 64 ≤ at_ ∧ Scheduled t at_ rankColl (.collectiveCommit cid 0))) ∧
    (∀ u, ks = [] → x.aborted = none → (x.commit = true ∨ x.commit = false ∧ u = 0 ∧ x.data ≠ [] ∧ s.halted k.core = false) →
      descNamedT k.desc = false → descKind k.desc ≤ 3 → 64 * (u + 1) ≤ (collResult k.desc x.data k.rank).2.length →
      Ends (.collectiveCommit cid u) s fun t => OnlyTiles { s with colls := t.colls } t ∧
        StoreGets s t (k.core / 2) ((descNamed k.desc).toNat % 2 ^ 24 + (collResult k.desc x.data k.rank).1 + 64 * u) 64
          (ofBytes ((collResult k.desc x.data k.rank).2.drop (64 * u) |>.take 64)) ∧
        (64 * (u + 1) < (collResult k.desc x.data k.rank).2.length → (t.coll cid).commit = true ∧
          Scheduled t (s.now + 1) rankColl (.collectiveCommit cid (u + 1))) ∧
        (64 * (u + 1) = (collResult k.desc x.data k.rank).2.length →
          Table.get none (t.tile (k.core / 2)).outcomes k.ticket = some (0, s.now) ∧ t.coll cid = Coll.none)) ∧
    (∀ u, x.aborted = none → x.commit = false → (∃ j ∈ x.parts, s.halted j.core = true) → Ends (.collectiveCommit cid u) s fun t =>
      t.tiles = s.tiles ∧ SameBytes s t ∧ t.coll cid = Coll.none)) ∧
  (∀ (s : State) (cid reason : Nat) (x : Coll), Whole s → s.coll cid = x →
    (x.parts = [] ∨ x.commit = true → Runs (.collectiveAbort cid reason) s s) ∧
    (x.parts ≠ [] → x.commit = false → reason = 4 → Ends (.collectiveAbort cid reason) s fun t =>
      t.coll cid = Coll.none ∧ t.tiles = s.tiles) ∧
    (x.parts ≠ [] → x.commit = false → x.aborted = none → reason ≠ 4 → Ends (.collectiveAbort cid reason) s fun t =>
      t = { s with colls := t.colls, agenda := t.agenda, order := t.order } ∧ t.coll cid = { x with aborted := some (reason, s.now) } ∧
      ∀ i, i < x.parts.length → Scheduled t s.now rankColl (.collectiveCommit cid (2 ^ 24 * i))) ∧
    (∀ i u k w, x.aborted = some (reason, w) → x.parts[i]? = some k → u < 2 ^ 24 →
      (u = 0 → s.engineBusy cid (k.core / 2) = true → Ends (.collectiveCommit cid (2 ^ 24 * i)) s fun t =>
        OnlyLatch s t ∧ t.latch = s.latch ∧ Scheduled t (s.now + 1) rankColl (.collectiveCommit cid (2 ^ 24 * i))) ∧
      ((u = 0 → s.engineBusy cid (k.core / 2) = false) → reason ≠ 1 → descNamedT k.desc = false →
        Ends (.collectiveCommit cid (2 ^ 24 * i + u)) s fun t => OnlyTiles { s with colls := t.colls } t ∧
          StoreGets s t (k.core / 2) (descStage k.desc + 64 * u) 64 0 ∧
          (64 * (u + 1) < stageSize k.desc x.count → Scheduled t (s.now + 1) rankColl (.collectiveCommit cid (2 ^ 24 * i + (u + 1)))) ∧
          (stageSize k.desc x.count ≤ 64 * (u + 1) →
            Table.get none (t.tile (k.core / 2)).outcomes k.ticket = some (reason, s.now) ∧ k.ticket ∉ (t.tile (k.core / 2)).colls)))) ∧
  (∀ (d : List Byte) (cs : List (List Byte)) (k : Nat),
    (descKind d = 2 → collResult d cs k = (0, cs.flatten)) ∧ (descKind d = 3 → collResult d cs k = (0, cs.getD (descRoot d) [])) ∧
    (descKind d = 1 → collResult d cs k = (k * descCount d, foldRanks (descFmt d) (descOp d)
      (cs.map fun c => (c.drop (k * descCount d)).take (descCount d)))) ∧
    (descKind d = 0 → collResult d cs k = (0, foldRanks (descFmt d) (descOp d) cs))) ∧
  ∀ (c : List Byte) (cs : List (List Byte)) (n : Nat), c.length = 4 * n → (∀ e ∈ cs, e.length = 4 * n) →
    (foldRanks 5 0 (c :: cs)).length = 4 * n ∧
    ∀ j, j < n → laneAt 32 (foldRanks 5 0 (c :: cs)) j = ((c :: cs).map fun e => laneAt 32 e j).sum % 2 ^ 32

/-- R396-R402, R405, R409, R412-R416. The optical forms complete in an exchange phase on a data lane's port tile: OSEND queues its message
on the lane, at its first free slot four cycles on, or waits while sixteen are queued; ORECV goes on when its flits have come, waits in a
windowed phase and traps in a timed one; a lost port takes 0x22. OGAP declares a gap; OVER compares the program's topology version with
TOPVER, on any tile. On a port tile OSEND and ORECV take 0x01 for an entry that does not suit them; outside an exchange phase each form
takes 0x03, and where the lane is not the core's own to use OSEND, ORECV and OGAP take 0x14. A wait lasts 16 × BOUND cycles at most (R185).
What the spec leaves open of the lanes is the model's reading (log entry 21): the free bits of TINFO2 of an OVER, and the cycle from which a
lane that has sent is free again. -/
def Obligations.OpticalForms : Prop :=
  (∀ (s : State) (och : BitVec 7) (xa : BitVec 4) (b : BitVec 20) (n src : Nat), Live s → n = optCount s xa →
    src = (s.x xa).toNat % 2 ^ 24 → OsendSound s och.toNat xa n src →
    (s.portSeen s.modid (och.toNat / 8) = true → TrappedWith (.osend och xa b) s 0x22
      (och.toNat + (s.x xa).toNat / 2 ^ 24 % 2 ^ 8 * 2 ^ 8) (och.toNat / 8) (optPmod (optWord s xa))) ∧
    (s.portSeen s.modid (och.toNat / 8) = false → 16 ≤ (laneOf' s).msgs.length → Ends (.osend och xa b) s fun t => OnlyLatch s t ∧
      Holds s t 4 b.toNat (limitAfter s 0 b.toNat) (.osend och.toNat (s.x xa))) ∧
    (s.portSeen s.modid (och.toNat / 8) = false → (laneOf' s).msgs.length < 16 → Ends (.osend och xa b) s fun t =>
      OnlyTile s t (s.latch.core / 2) ∧ SameBytes s t ∧
      (optOf t xa).sent = (optOf s xa).sent + n ∧ (laneOf' t).next = (laneOf' s).next + 1 ∧ (n = 0 → (laneOf' t).msgs = (laneOf' s).msgs) ∧
      (0 < n → ∃ m ∈ (laneOf' t).msgs, m.id = (laneOf' s).next ∧ m.issue = s.now ∧ m.src = src ∧ m.n = n ∧ m.next = 0 ∧
        m.off = (s.x xa).toNat / 2 ^ 48 % 2 ^ 16 ∧ m.pmod = optPmod (optWord s xa) ∧ m.plane = optPlane (optWord s xa) ∧
        m.pent = optPent (optWord s xa) ∧ m.plan = max (s.now + 4) (laneOf' s).freeAt ∧
        (m.demand = true ↔ optKind (optWord s xa) = 3 ∨ s.me.windowed = true) ∧
        (m.demand = false → (∀ o ∈ (laneOf' s).msgs, o.demand = true) →
          Scheduled t (max (max (s.now + 4) (laneOf' s).freeAt) (laneOf' s).slotAt) rankSample
            (.opticalFlitDeparture (s.latch.core / 2) m.id 0))))) ∧
  (∀ (s : State) (och : BitVec 7) (xa : BitVec 4) (b : BitVec 20) (need : Nat), need = optCount s xa → OrecvSound s och.toNat xa need →
    (s.portSeen (optPmod (optWord s xa)) (optPlane (optWord s xa) / 8) = true → TrappedWith (.orecv och xa b) s 0x22
      (och.toNat + (s.x xa).toNat / 2 ^ 24 % 2 ^ 8 * 2 ^ 8) (optPlane (optWord s xa) / 8 + 16) (optPmod (optWord s xa))) ∧
    (s.portSeen (optPmod (optWord s xa)) (optPlane (optWord s xa) / 8) = false →
      ((optOf s xa).stale ≠ 0 →
        TrappedWith (.orecv och xa b) s 0x20 s.topver (optOf s xa).topv.toNat (och.toNat + (s.x xa).toNat / 2 ^ 24 % 2 ^ 8 * 2 ^ 8 + 2 ^ 16)) ∧
      ((optOf s xa).stale = 0 → need ≤ optArrived s xa → Runs (.orecv och xa b) s s) ∧
      ((optOf s xa).stale = 0 → optArrived s xa < need → s.me.windowed = true → Ends (.orecv och xa b) s fun t => OnlyLatch s t ∧
        Holds s t 4 b.toNat (limitAfter s 0 b.toNat) (.orecv (och.toNat + (s.x xa).toNat / 2 ^ 24 % 2 ^ 8 * 2 ^ 7) need)) ∧
      ((optOf s xa).stale = 0 → optArrived s xa < need → s.me.windowed = false →
        TrappedWith (.orecv och xa b) s 0x21 (och.toNat + (s.x xa).toNat / 2 ^ 24 % 2 ^ 8 * 2 ^ 8) (optArrived s xa % 2 ^ 16 + need * 2 ^ 16)
          (optPmod (optWord s xa))))) ∧
  (∀ (s : State) (gap : BitVec 20) (l : Nat), Whole s → Exchanges s → HasLane s l →
    Ends (.ogap gap) s fun t => t = s.setTile (s.latch.core / 2) { mine s with lane := { laneOf' s with
      gapFrom := s.now + 1, gapTo := if gap = 0 then 0 else s.now + 64 * gap.toNat } }) ∧
  (∀ (s : State) (a : BitVec 4), Exchanges s →
    ((s.x a).toNat % 2 ^ 16 = s.topver → Runs (.over a) s s) ∧
    ((s.x a).toNat % 2 ^ 16 ≠ s.topver → ∃ f, f < 2 ^ 14 ∧ exec (.over a) s = .next ({ s with free := s.free + 1 }.trapNow
      { cause := 0x20, t0 := s.topver, t1 := (s.x a).toNat % 2 ^ 16, t2 := f, imp := false }))) ∧
  (∀ (s : State) (a : BitVec 4) (gap : BitVec 20),
    (¬ Exchanges s → Trapped (.over a) s 0x03 s.latch.word (slotIndex s) ∧ Trapped (.ogap gap) s 0x03 s.latch.word (slotIndex s)) ∧
    (Exchanges s → (∀ l, ¬ HasLane s l) → Trapped (.ogap gap) s 0x14 s.latch.word (slotIndex s))) ∧
  ∀ (i : Instr) (s : State) (och : BitVec 7) (xa : BitVec 4) (b : BitVec 20) (suits : Prop),
    (i = .osend och xa b ∧ suits = OptKind s xa 1 3 ∨ i = .orecv och xa b ∧ suits = OptKind s xa 2 4) →
    (PortTile s → ¬ suits → Trapped i s 0x01 s.latch.word (slotIndex s)) ∧
    (suits ∨ ¬ PortTile s → ¬ Exchanges s → Trapped i s 0x03 s.latch.word (slotIndex s)) ∧
    (suits ∨ ¬ PortTile s → Exchanges s → ¬ HasLane s och.toNat → Trapped i s 0x14 s.latch.word (slotIndex s))

/-- R399-R401, R406, R407, R409-R418. An OSEND on a lane with room queues its message, an ORECV that has its flits and an OVER of the present
version go on, and an OGAP sets its lane's gap. The steps of the optical ports complete: a timed flit that leaves is at this module's own lane
2,996 cycles on; a flit of the present topology version is written and counted, and one of another version is dropped and marks its
entry; an acknowledgement is counted; a pause keeps the port's eight lanes and schedules its end and its bounds; a port that passes its
bound is lost with its messages; the notice of another module's lost port is seen from then on; retraining keeps its lane less than 96,000 cycles, and a port's eight less than 114,000; firmware's drift is posted; a module that no job
here uses, a spare and the guard are lost without effect on a job; the loss of a serving module stops its jobs' parts, which resume from
their save areas once the lowest spare has its place, or end where R421 and R423 allow no rebuild.
The acknowledgement of a dropped flit, the retraining's free time and the rebuild's are the model's reading (log entry 21). -/
def Obligations.OpticalSteps : Prop :=
  (∀ (s : State) (och : BitVec 7) (xa : BitVec 4) (b : BitVec 20), Live s →
    (OsendSound s och.toNat xa (optCount s xa) ((s.x xa).toNat % 2 ^ 24) → s.portSeen s.modid (och.toNat / 8) = false →
      (laneOf' s).msgs.length < 16 → Ends (.osend och xa b) s fun t => (laneOf' t).next = (laneOf' s).next + 1) ∧
    (OrecvSound s och.toNat xa (optCount s xa) → s.portSeen (optPmod (optWord s xa)) (optPlane (optWord s xa) / 8) = false →
      (optOf s xa).stale = 0 → optCount s xa ≤ optArrived s xa → Runs (.orecv och xa b) s s) ∧
    (∀ gap l, Exchanges s → HasLane s l → Ends (.ogap gap) s fun t => (laneOf' t).gapFrom = s.now + 1) ∧
    (Exchanges s → (s.x xa).toNat % 2 ^ 16 = s.topver → Runs (.over xa) s s)) ∧
  (∀ (s : State) (f : OptFlit), Whole s → f.lane < 128 → f.entry < 64 →
    (f.topv.toNat = s.topver → Ends (.opticalFlitWrite f) s fun t => OnlyTiles s t ∧
      StoreGets s t (tileOfLane f.lane) (optBase (s.opt (tileOfLane f.lane) f.entry).entry.toNat + 128 * f.index) 128 f.data.toNat ∧
      (t.opt (tileOfLane f.lane) f.entry).arr = (s.opt (tileOfLane f.lane) f.entry).arr + 1) ∧
    (f.topv.toNat ≠ s.topver → Ends (.opticalFlitWrite f) s fun t => OnlyTile s t (tileOfLane f.lane) ∧ SameBytes s t ∧
      t.opt (tileOfLane f.lane) f.entry = { s.opt (tileOfLane f.lane) f.entry with
        stale := (s.opt (tileOfLane f.lane) f.entry).stale + 1, topv := f.topv })) ∧
  (∀ (s : State) (f : OptFlit), 128 ≤ f.lane ∨ 64 ≤ f.entry → exec (.opticalFlitWrite f) s = .fault .noSuchUnit) ∧
  (∀ (s : State) (l : Nat), Whole s → l < 128 → ∀ msg, Ends (.opticalAck (tileOfLane l) msg) s fun t =>
    t = s.setTile (tileOfLane l) { s.tile (tileOfLane l) with lane := { (s.tile (tileOfLane l)).lane with
      unacked := (s.tile (tileOfLane l)).lane.unacked - 1, doneAt := max (s.tile (tileOfLane l)).lane.doneAt s.now } }) ∧
  (∀ (s : State) (l k : Nat) (m : OptMsg), Whole s → l < 128 → (s.port (l / 8)).lost = false → m.id < 2 ^ 32 →
    (s.tile (tileOfLane l)).lane.msgs = [m] → m.stalled = false → m.next = k → k + 1 < m.n → m.demand = false →
    (s.tile (tileOfLane l)).lane.slotAt ≤ s.now → (s.tile (tileOfLane l)).lane.blockTo ≤ s.now → Clean s (tileOfLane l) →
    Ends (.opticalFlitDeparture (tileOfLane l) m.id k) s fun t => OnlyTile s t (tileOfLane l) ∧ SameBytes s t ∧
      (t.tile (tileOfLane l)).lane.msgs = [{ m with next := k + 1 }] ∧
      Scheduled t (m.first + 768 * (k + 1 - m.base) / 125) rankSample (.opticalFlitDeparture (tileOfLane l) m.id (k + 1)) ∧
      (m.pmod = s.modid → ∃ f : OptFlit, Scheduled t (s.now + 2996) rankChannel (.opticalFlitWrite f) ∧ f.lane = m.plane ∧
        f.entry = m.pent ∧ f.index = m.off + k ∧ f.topv.toNat = s.topver % 2 ^ 16 ∧
        f.data = BitVec.ofNat 1024 (ofBytes (s.storeBytes (tileOfLane l) (m.src + 128 * k) 128)))) ∧
  (∀ (s : State) (p n : Nat), Whole s → p < 16 → (s.port p).lost = false →
    Ends (.pause p n) s fun t => SameBytes s t ∧ t.cores = s.cores ∧ (t.port p).pause = some ((s.port p).pause.getD s.now) ∧
      (∀ w, w < 8 → s.now + n ≤ (t.tile (tileOfLane (8 * p + w))).lane.blockTo) ∧ Scheduled t (s.now + n) rankStream (.pauseEnd p) ∧
      Scheduled t (max s.now ((s.port p).pause.getD s.now + (s.port p).bound)) rankAfter (.portLost p) ∧
      Scheduled t (max s.now ((s.port p).pause.getD s.now + 2 * (s.port p).bound)) rankAfter (.portLost p)) ∧
  (∀ (s : State) (l n : Nat), Whole s → l < 128 → (s.port (l / 8)).lost = false →
    Ends (.pause (16 + l) n) s fun t => SameBytes s t ∧ t.cores = s.cores ∧ s.now + n ≤ (t.tile (tileOfLane l)).lane.blockTo ∧
      (∀ m, m ≠ tileOfLane l → t.tile m = s.tile m) ∧ Scheduled t (s.now + n) rankStream (.pauseEnd (l / 8))) ∧
  (∀ (s : State) (p n : Nat), Whole s → p < 16 → Ends (.pause (144 + p) n) s fun t => t.tiles = s.tiles ∧ t.cores = s.cores ∧
    t.port p = { s.port p with bound := n }) ∧
  (∀ (s : State) (l : Nat) (b : HeldFlit), Whole s → l < 128 → (s.port (l / 8)).lost = false → b ∈ (s.port (l / 8)).buffer → b.lane = l →
    b.demand = false → (s.tile (tileOfLane l)).lane.blockTo ≤ s.now → (∀ v ∈ s.agenda, ∀ k, v.ev ≠ .opticalFlitDeparture (tileOfLane l) (2 ^ 33) k) →
    Ends (.pauseEnd (l / 8)) s fun t => Scheduled t s.now rankSample (.opticalFlitDeparture (tileOfLane l) (2 ^ 33) 0)) ∧
  (∀ (s : State) (p : Nat), Whole s → p < 16 → (s.port p).lost = false → (s.port p).buffer = [] →
    (∀ w, w < 8 → (s.tile (tileOfLane (8 * p + w))).lane.blockTo ≤ s.now) →
    (∀ w, w < 8 → (s.tile (tileOfLane (8 * p + w))).lane.msgs = []) →
    Ends (.pauseEnd p) s fun t => SameBytes s t ∧ t.cores = s.cores ∧ (t.port p).pause = none) ∧
  (∀ (s : State) (p b : Nat), Whole s → p < 16 → (s.port p).lost = false → (s.port p).pause = some b →
    (s.now < b + (s.port p).bound → Runs (.portLost p) s s) ∧
    (b + 2 * (s.port p).bound ≤ s.now → Ends (.portLost p) s fun t => (t.port p).lost = true ∧ t.cores = s.cores ∧
      (∀ w, w < 8 → (t.tile (tileOfLane (8 * p + w))).lane.msgs = []) ∧ t.armed.isSome = true ∧
      ∀ e ∈ s.colls, e.2.group = true → e.2.commit = false → Scheduled t s.now rankColl (.collectiveAbort e.1 2))) ∧
  (∀ (s : State) (m p : Nat), Whole s → SameGroup m s.modid → m ≠ s.modid → p < 16 → Ends (.portLost (16 * (m + 1) + p)) s fun t =>
    t.portSeen m p = true ∧ SameBytes s t ∧ t.cores = s.cores) ∧
  (∀ (s : State) (l : Nat), Whole s → l < 128 → (s.tile (tileOfLane l)).lane.msgs = [] → (s.tile (tileOfLane l)).lane.blockTo ≤ s.now →
    (s.tile (tileOfLane l)).lane.gapFrom = s.now → s.now + 96000 ≤ (s.tile (tileOfLane l)).lane.gapTo →
    Ends (.laneRetraining l) s fun t => SameBytes s t ∧ t.cores = s.cores ∧ s.now < (t.tile (tileOfLane l)).lane.blockTo ∧
      (t.tile (tileOfLane l)).lane.blockTo ≤ s.now + 96000 ∧
      Scheduled t (t.tile (tileOfLane l)).lane.blockTo rankStream (.pauseEnd (l / 8))) ∧
  (∀ (s : State) (p : Nat), Whole s → p < 16 →
    ((s.port p).lost = true ∨ (∀ e ∈ s.parts, e.2.status = .none) → Ends (.laneRetraining (128 + p)) s fun t => SameBytes s t ∧
      t.cores = s.cores ∧ (t.port p).lost = false ∧ t.portSeen s.modid p = false ∧ ∃ e, s.now < e ∧ e ≤ s.now + 114000 ∧
        (∀ w, w < 8 → (t.tile (tileOfLane (8 * p + w))).lane.blockTo = max (s.tile (tileOfLane (8 * p + w))).lane.blockTo e) ∧
        Scheduled t e rankStream (.pauseEnd p)) ∧
    ((s.port p).lost = false → (∃ e ∈ s.parts, e.2.status ≠ .none) → Runs (.laneRetraining (128 + p)) s s)) ∧
  (∀ (s : State) (v : BitVec 16) (m : Nat), m < 2 ^ 18 → Runs (.driftMeasurement v) s { s with drift := v } ∧
    (¬ SameGroup m s.modid → s.users m = [] → Runs (.heartbeatLoss m) s s) ∧
    (SameGroup m s.modid → m ∈ s.spares → Runs (.heartbeatLoss m) s
      { s with spares := s.spares.filter fun n => decide (n ≠ m), lostSpares := s.lostSpares ++ [m] }) ∧
    (SameGroup m s.modid → m ∉ s.spares → s.guard_ = some m → Runs (.heartbeatLoss m) s { s with guard_ := none })) ∧
  ∀ (s : State) (m place : Nat), Whole s → m < 2 ^ 18 → ServesHere s m place →
    (Rebuildable s place → s.spares ≠ [] → Ends (.heartbeatLoss m) s fun t => ∃ spare done, spare ∈ s.spares ∧ (∀ n ∈ s.spares, spare ≤ n) ∧
      s.now ≤ done ∧ Table.get 0 t.serving place = spare + 1 ∧ t.spares = s.spares.filter (fun n => decide (n ≠ spare)) ∧
      t.armed.isSome = true ∧ Scheduled t done rankRelease (.heartbeatLoss (2 ^ 18 + place)) ∧
      ∀ pid ∈ s.users m, (s.part pid).resumeSave.isSome = true → (t.part pid).status = .restoring ∧
        Scheduled t done rankAfter (.roundRestore pid none)) ∧
    (¬ RebuildPossible s place ∨ s.guard_ = none ∨ Rebuildable s place ∧ s.spares = [] → Ends (.heartbeatLoss m) s fun t =>
      t.serving = Table.drop s.serving place ∧ t.spares = s.spares ∧ ∀ pid ∈ s.users m, (t.part pid).ending = true ∧
        Scheduled t s.now rankAfter (.endArrival ((s.part pid).cores.headD 0) s.now))

/-- R402, R403. An interval of the demand circuits completes: it begins now, the next is due 2,400 cycles on, and each wavelength's circuits
join ports at most once: no two from one source, no two to one destination, and only from queues that hold something.
The depths that ports report are the model's reading (log entry 20). -/
def Obligations.DemandCircuits : Prop :=
  (∀ (s : State) (q : List (List Nat)), 
    (s.domain = [] → Runs (.demandInterval q) s s) ∧
    (s.domain ≠ [] → Ends (.demandInterval q) s fun t => SameBytes s t ∧ t.tiles = s.tiles ∧ t.cores = s.cores ∧
      t.interval = s.interval + 1 ∧ t.intervalAt = s.now ∧ (∃ q1, Scheduled t (s.now + 2400) rankRelease (.demandInterval q1)) ∧
      t.reports.getLast? = some s.report)) ∧
  ∀ (n r k : Nat) (fs fd : List Nat) (q : List (List Nat)), fs.Nodup → fd.Nodup →
    ((matchWave n r k fs fd q).1.map Prod.fst).Nodup ∧ ((matchWave n r k fs fd q).1.map Prod.snd).Nodup ∧
    ∀ c ∈ (matchWave n r k fs fd q).1, c.1 ∈ fs ∧ c.2 ∈ fd ∧ 0 < (q.getD c.1 []).getD c.2 0

/-- R193-R197. The commands that steer a queue complete: LOOPC opens a loop or skips to its ENDC, ENDC goes back or closes it, IFMEM skips
commands on a false comparison, WAITTOK waits for a token's value, SIGTOK adds to one and wakes what it releases. The errors of
Table 9.4 halt the queue and do nothing else.
The order of a queue's errors is the model's reading (log entry 34). -/
def Obligations.QueueControl : Prop :=
  ∀ (s : State) (q : Nat), Whole s → q < 16 →
    (Ends (.loopc q 0) s fun t => QueueIs s t q { past s q 1 with seek := 1 }) ∧
    (∀ count : BitVec 32, count ≠ 0 →
      ((s.queue q).loops.length < 4 → Ends (.loopc q count) s fun t =>
        QueueIs s t q { past s q 1 with loops := { start := (past s q 1).head, left := count.toNat } :: (s.queue q).loops }) ∧
      (4 ≤ (s.queue q).loops.length → Halts (.loopc q count) s q 1 2)) ∧
    ((s.queue q).loops = [] → Halts (.endc q) s q 1 2) ∧
    (∀ l r, (s.queue q).loops = l :: r →
      (1 < l.left → Ends (.endc q) s fun t =>
        QueueIs s t q { past s q 1 with head := l.start, loops := { l with left := l.left - 1 } :: r }) ∧
      (l.left ≤ 1 → Ends (.endc q) s fun t => QueueIs s t q { past s q 1 with loops := r })) ∧
    (∀ (cond : BitVec 2) (n : BitVec 4) (addr : BitVec 48) (v : Word),
      (s.ctxBytes q addr.toNat 8 = none → Halts (.ifmem q cond n addr v) s q 2 8) ∧
      ∀ bs, s.ctxBytes q addr.toNat 8 = some bs →
        (ifTrue cond.toNat (ofBytes bs) v.toNat → Ends (.ifmem q cond n addr v) s fun t => QueueIs s t q (past s q 2)) ∧
        (¬ ifTrue cond.toNat (ofBytes bs) v.toNat → Ends (.ifmem q cond n addr v) s fun t =>
          QueueIs s t q { past s q 2 with skip := n.toNat })) ∧
    (∀ (tok : BitVec 8) (v : BitVec 32),
      ((s.queue q).waitmask.getLsbD (tok.toNat / 16) = false → Halts (.waittok q tok v) s q 1 3) ∧
      ((s.queue q).waitmask.getLsbD (tok.toNat / 16) = true →
        (Reached (s.token tok.toNat) v.toNat → Ends (.waittok q tok v) s fun t => QueueIs s t q (past s q 1)) ∧
        (¬ Reached (s.token tok.toNat) v.toNat → Ends (.waittok q tok v) s fun t =>
          QueueIs s t q { past s q 1 with block := .token tok.toNat v.toNat }))) ∧
    (∀ tok v, (s.queue q).block = .token tok v →
      (Reached (s.token tok) v → Ends (.waittokRelease q) s fun t => QueueIs s t q { s.queue q with block := .none }) ∧
      (¬ Reached (s.token tok) v → Runs (.waittokRelease q) s s)) ∧
    (∀ (tok : BitVec 4) (add : BitVec 32), Ends (.sigtok q tok add) s fun t =>
      t = { s with agenda := t.agenda, order := t.order, queues := t.queues,
                   tokens := Table.set 0 s.tokens (16 * q + tok.toNat) ((s.token (16 * q + tok.toNat) + add.toNat) % 2 ^ 32) } ∧
      t.queue q = { past s q 1 with idleAt := (t.queue q).idleAt } ∧ (∀ p, p ≠ q → t.queue p = s.queue p) ∧
      ∀ p v, p < 16 → (s.queue p).block = .token (16 * q + tok.toNat) v →
        Reached ((s.token (16 * q + tok.toNat) + add.toNat) % 2 ^ 32) v → Scheduled t s.now rankAfter (.waittokRelease p)) ∧
    (∀ l r, (s.queue q).block = .none → (s.queue q).halt = false → (s.queue q).head = (s.queue q).tail % 2 ^ (s.queue q).log2 →
      (s.queue q).loops = l :: r → (s.queue q).idleAt + 1200000000 ≤ s.now →
      Ends (.loopcIdleTimeout q) s fun t => (t.queue q).halt = true ∧ (t.queue q).err = 2 ∧
        (t.queue q).word = (l.start + 2 ^ (s.queue q).log2 - 1) % 2 ^ (s.queue q).log2 ∧ ∀ p, p ≠ q → t.queue p = s.queue p) ∧
    (s.now < (s.queue q).idleAt + 1200000000 → Runs (.loopcIdleTimeout q) s s)

/-- R194, R255, R264, R265, R284, R432. COPYHT and MANIFEST block their queue until they complete; a completed COPYHT has written every byte
and signals its token, a completed MANIFEST has written its result. MAP writes its leaves and INVAL clears its own; INVAL,
and a MAP that replaces a valid page, wait until no old translation is held, and their end lets the queue go on. An unmapped range is error 0x08, an illegal MAP 0x01.
The cycle of a transfer's bytes is the model's choice (log entry 35), and the order of a queue's errors its reading (34). -/
def Obligations.QueueTransfers : Prop :=
  ∀ (s : State) (q : Nat), Whole s → q < 16 →
    (∀ (sig : Bool) (tok : BitVec 4) (dir : Bool) (host : Word) (dev : BitVec 48) (len : Word),
      (¬ Mapped s q dev.toNat len.toNat → Halts (.copyht q sig tok dir host dev len) s q 4 8) ∧
      (Mapped s q dev.toNat len.toNat → Ends (.copyht q sig tok dir host dev len) s fun t =>
        QueueIs { s with free := t.free } t q { past s q 4 with block := .copy, copy := some (copyOf q sig tok dir host dev len) } ∧
        ∃ n, s.now ≤ n ∧ Scheduled t n rankAfter (.copyhtCompletion q))) ∧
    (∀ stored result : BitVec 48,
      (¬ Mapped s q stored.toNat 448 ∨ ¬ Mapped s q result.toNat 8 → Halts (.manifest q stored result) s q 2 8) ∧
      (Mapped s q stored.toNat 448 → Mapped s q result.toNat 8 → Ends (.manifest q stored result) s fun t =>
        QueueIs { s with free := t.free } t q { past s q 2 with block := .copy, compare := some (stored.toNat, result.toNat) } ∧
        ∃ n, s.now ≤ n ∧ Scheduled t n rankAfter (.copyhtCompletion q))) ∧
    (∀ c : Copy, (s.queue q).block = .copy → (s.queue q).copy = some c → (s.queue q).compare = none → Mapped s q c.dev c.len →
      (c.toHost = true → Ends (.copyhtCompletion q) s fun t => SameTileBytes s t ∧ t.tier = s.tier ∧ Signalled s t c.token ∧
        (t.queue q).block = .none ∧ (t.queue q).copy = none ∧
        ∀ a, Memory.read t.hostMem a =
          if s.bus c.host ≤ a ∧ a < s.bus c.host + c.len then (s.ctxByte q (c.dev + (a - s.bus c.host))).getD 0
          else Memory.read s.hostMem a) ∧
      (c.toHost = false → (∀ i j, i < c.len → j < c.len → s.translate q (c.dev + i) = s.translate q (c.dev + j) → i = j) →
        Ends (.copyhtCompletion q) s fun t => SameTileBytes s t ∧ t.hostMem = s.hostMem ∧ Signalled s t c.token ∧
        (t.queue q).block = .none ∧ (t.queue q).copy = none ∧
        (∀ i pa, i < c.len → s.translate q (c.dev + i) = some pa → Memory.read t.tier pa = Memory.read s.hostMem (s.bus c.host + i)) ∧
        ∀ pa, (∀ i, i < c.len → s.translate q (c.dev + i) ≠ some pa) → Memory.read t.tier pa = Memory.read s.tier pa)) ∧
    (∀ a r, (s.queue q).block = .copy → (s.queue q).copy = none → (s.queue q).compare = some (a, r) →
      Ends (.copyhtCompletion q) s fun t => SameTileBytes s t ∧ t.hostMem = s.hostMem ∧ t.tokens = s.tokens ∧
        (t.queue q).block = .none ∧ (t.queue q).compare = none ∧
        (s.manifest q = none → r % 2 ^ 21 + 8 ≤ 2 ^ 21 → ∀ pa, s.translate q r = some pa → Memory.nat t.tier pa 8 = 0xFF)) ∧
    (∀ (va : BitVec 48) (entry count : Word),
      (MapIllegal va.toNat entry.toNat count.toNat → Halts (.mapPages q va entry count) s q 3 1) ∧
      (¬ MapIllegal va.toNat entry.toNat count.toNat → Ends (.mapPages q va entry count) s fun t => SameBytes s t ∧
        (∀ i, i < count.toNat → t.leaf q (va.toNat + i * 2 ^ 21) = entry + BitVec.ofNat 64 i) ∧
        (∀ ctx a, ctx ≠ q ∨ a % 2 ^ 48 / 2 ^ 21 < va.toNat / 2 ^ 21 ∨ va.toNat / 2 ^ 21 + count.toNat ≤ a % 2 ^ 48 / 2 ^ 21 →
          t.leaf ctx a = s.leaf ctx a) ∧
        (∀ p ∈ t.tlbs, ∀ e ∈ p.2.entries, e.ctx = q → va.toNat / 2 ^ 21 ≤ e.page → e.page < va.toNat / 2 ^ 21 + count.toNat →
          p.1 < 80 → e.dying = true) ∧
        (Replaces s q va.toNat count.toNat ∧ Draining t → (t.queue q).block = .drain) ∧
        (¬ (Replaces s q va.toNat count.toNat ∧ Draining t) → (t.queue q).block = (s.queue q).block))) ∧
    (∀ (va : BitVec 48) (count : Word), Ends (.inval q va count) s fun t => SameBytes s t ∧
      (∀ a, va.toNat / 2 ^ 21 ≤ a % 2 ^ 48 / 2 ^ 21 → a % 2 ^ 48 / 2 ^ 21 < va.toNat / 2 ^ 21 + count.toNat → t.leaf q a = 0) ∧
      (∀ ctx a, ctx ≠ q ∨ a % 2 ^ 48 / 2 ^ 21 < va.toNat / 2 ^ 21 ∨ va.toNat / 2 ^ 21 + count.toNat ≤ a % 2 ^ 48 / 2 ^ 21 →
        t.leaf ctx a = s.leaf ctx a) ∧
      (Draining t → (t.queue q).block = .drain) ∧ (¬ Draining t → (t.queue q).block = (s.queue q).block)) ∧
    ((s.queue q).block = .drain →
      (¬ Draining s → Ends (.invalDrainEnd q) s fun t => QueueIs s t q { s.queue q with block := .none }) ∧
      (Draining s → Runs (.invalDrainEnd q) s s))

/-- R198-R204, R368, R369, R387, R388. The launching commands complete: a header at fault halts the queue with its error, an empty shape
completes at once, a sound launch waits and takes the first origin of the scan that fits; its tiles are loaded from the image to begin at
START, or with the registers, accumulators and ladings of the save area to begin at the resume entry in the saved phase; T0 is the tick
of the last load + 4,096, rounded up to 64, and there its queue goes on. PREEMPT, RETIRE and SELFTEST block their queue until what they ask
is done; a pre-emption writes the save area of Table 18.2.
The order of a launch's errors is the model's reading (log entry 38), as is that core 1 of a split tile enters the second half of the index
area (27) and the layout of a save area where the spec gives none (28); the free choice of a partition's id is its choice (33), an
image a table of the surroundings (4), and that the guard of a time group launches nothing its reading (21). -/
def Obligations.LaunchCommands : Prop :=
  ∀ (s : State) (q : Nat), Whole s → q < 16 →
    (∀ (sig : Bool) (tok : BitVec 4) (hdr size save : BitVec 48),
      (headerAt s q hdr = none → Halts (.launch q sig tok hdr) s q 1 8 ∧ Halts (.launchi q sig tok hdr size) s q 2 8 ∧
        Halts (.resume q sig tok hdr save) s q 2 8) ∧
      ∀ h, headerAt s q hdr = some h →
        Launched (.launch q sig tok hdr) s q 1 (launchOf s q h h.width h.height sig tok none) ∧
        (s.ctxBytes q size.toNat 8 = none → Halts (.launchi q sig tok hdr size) s q 2 8) ∧
        (∀ bs, s.ctxBytes q size.toNat 8 = some bs →
          (h.width < ofBytes bs % 2 ^ 8 ∨ h.height < ofBytes bs / 2 ^ 8 % 2 ^ 8 ∨ ofBytes bs / 2 ^ 16 ≠ 0 →
            Halts (.launchi q sig tok hdr size) s q 2 5) ∧
          (ofBytes bs % 2 ^ 8 ≤ h.width → ofBytes bs / 2 ^ 8 % 2 ^ 8 ≤ h.height → ofBytes bs / 2 ^ 16 = 0 →
            Launched (.launchi q sig tok hdr size) s q 2
              (launchOf s q h (ofBytes bs % 2 ^ 8) (ofBytes bs / 2 ^ 8 % 2 ^ 8) sig tok none))) ∧
        (s.ctxBytes q save.toNat 4096 = none → Halts (.resume q sig tok hdr save) s q 2 8) ∧
        ∀ bs v, s.ctxBytes q save.toNat 4096 = some bs → v = ofBytes (bs.take 8) → headerBad h h.width h.height = false →
          (h.resume = 0xFFFFFFFF ∨ v % 2 ^ 32 ≠ h.iver ∨ v / 2 ^ 32 % 2 ^ 8 ≠ h.width ∨ v / 2 ^ 40 % 2 ^ 8 ≠ h.height →
            Halts (.resume q sig tok hdr save) s q 2 9) ∧
          (h.resume ≠ 0xFFFFFFFF → v % 2 ^ 32 = h.iver → v / 2 ^ 32 % 2 ^ 8 = h.width → v / 2 ^ 40 % 2 ^ 8 = h.height →
            ∀ n, n = 4096 + 4 * h.width * h.height * (2 ^ 17 * (if h.split = true then 2 else 1) + 2 ^ 19 + h.lading) →
            (¬ Mapped s q save.toNat n → Halts (.resume q sig tok hdr save) s q 2 8) ∧
            (Mapped s q save.toNat n → Launched (.resume q sig tok hdr save) s q 2 (launchOf s q h h.width h.height sig tok (some save.toNat))))) ∧
    (∀ l im, (s.queue q).block = .place → (s.queue q).launch = some l → s.image l.image = some im →
      (s.guard_ = some s.modid → Runs (.launchPlacement q) s s) ∧
      ((∃ p, p < 16 ∧ (s.queue p).block = .place ∧ (s.queue q).prio < (s.queue p).prio) → Runs (.launchPlacement q) s s) ∧
      ((∀ o ∈ scanOrigins l.hdr.gsize l.width l.height, ¬ Fits s im l o) → Runs (.launchPlacement q) s s) ∧
      ∀ as o bs, s.guard_ ≠ some s.modid → (∀ p, p < 16 → (s.queue p).block = .place → (s.queue p).prio ≤ (s.queue q).prio) →
        scanOrigins l.hdr.gsize l.width l.height = as ++ o :: bs → (∀ a ∈ as, ¬ Fits s im l a) → Fits s im l o →
        Ends (.launchPlacement q) s fun t => SameBytes s t ∧ t.cores = s.cores ∧ (t.queue q).launch = none ∧
          Scheduled t s.now rankAfter (.launchPlacement q) ∧ ∃ pid, (t.queue q).block = .start pid ∧
            (t.part pid).status = .waiting ∧ (t.part pid).hdr = l.hdr ∧ (t.part pid).image = l.image ∧ (t.part pid).queue = q ∧ (t.part pid).ox = o.1 ∧
            (t.part pid).oy = o.2 ∧ (t.part pid).width = l.width ∧ (t.part pid).height = l.height ∧
            (t.part pid).token = (l.token.map fun k => (q, k)) ∧ (t.part pid).resumeSave = l.save) ∧
    (∀ pid im p, p = s.part pid → (s.queue q).block = .start pid → p.status = .waiting → p.t0 = 0 → p.hdr.gcount = 0 →
      s.image p.image = some im → (∀ n ∈ p.tiles, s.quaysDrained n = true) → NoStep s pid →
      (p.resumeSave = none → Ends (.launchPlacement q) s fun t => Loaded s t pid p p.hdr.start 0 ∧
        (∀ c ∈ p.cores, (t.core c).hm = false ∧ (t.core c).regs = Core.idle.regs) ∧
        ∀ n ∈ p.tiles, (t.tile n).store = Memory.writeAll [] ((im.tile (p.rel n)).contents.flatMap fun e => atAddr e.1 e.2) ∧
          (t.tile n).om = [] ∧ (t.tile n).acc0 = [] ∧ (t.tile n).acc1 = [] ∧ (t.tile n).quays = [] ∧ (t.tile n).tokens = [] ∧
          (t.tile n).engines = [] ∧ (t.tile n).chans = [] ∧ (t.tile n).colls = [] ∧
          (t.tile n).routes = (im.tile (p.rel n)).routes.foldl (fun z e => Table.set (0 : BitVec 128) z e.1 e.2) []) ∧
      ∀ save, p.resumeSave = some save → Mapped s p.queue save (areaSize p) → s.tierPoison = [] → p.tiles.Nodup →
        Ends (.launchPlacement q) s fun t => Loaded s t pid p p.hdr.resume (savedAt s p.queue (save + 8) 4) ∧
          ∀ i n j b, p.tiles[i]? = some n → j < coresOf p → b = tileArea p save i + 2 ^ 17 * j →
            SavedRegs s p.queue b (t.core (2 * n + j)).regs ∧
            (t.core (2 * n + j)).lkstat = BitVec.ofNat 64 (savedAt s p.queue (b + 0x14580) 8) ∧
            (∀ a, a < 2 ^ 18 → (Memory.read (t.tile n).acc0 a).toNat = savedAt s p.queue (tileArea p save i + 2 ^ 17 * coresOf p + a) 1 ∧
              (Memory.read (t.tile n).acc1 a).toNat = savedAt s p.queue (tileArea p save i + 2 ^ 17 * coresOf p + 2 ^ 18 + a) 1) ∧
            ∀ a, a < p.hdr.lading → (Memory.read (t.tile n).store ((t.core (2 * n)).lading + a)).toNat =
              savedAt s p.queue (tileArea p save i + 2 ^ 17 * coresOf p + 2 ^ 19 + a) 1) ∧
    (∀ pid, (s.queue q).block = .start pid → (s.part pid).status = .running →
      ((s.part pid).t0 ≤ s.now → Ends (.launchPlacement q) s fun t => QueueIs s t q { s.queue q with block := .none }) ∧
      (s.now < (s.part pid).t0 → Runs (.launchPlacement q) s s)) ∧
    (∀ (pid : BitVec 16) (save : BitVec 48),
      ((s.part pid.toNat).status = .none → Ends (.preempt q pid save) s fun t => QueueIs s t q (past s q 2)) ∧
      ((s.part pid.toNat).status ≠ .none → ¬ Mapped s q save.toNat (s.part pid.toNat).saveSize → Halts (.preempt q pid save) s q 2 8) ∧
      ((s.part pid.toNat).status ≠ .none → Mapped s q save.toNat (s.part pid.toNat).saveSize → (s.part pid.toNat).preempt = none →
        Ends (.preempt q pid save) s fun t => QueueIs { s with parts := t.parts } t q { past s q 2 with block := .preempt pid.toNat } ∧
          t.part pid.toNat = { s.part pid.toNat with preempt := some (q, save.toNat) } ∧
          ∀ p, p ≠ pid.toNat → t.part p = s.part p)) ∧
    (∀ pid save p, p = s.part pid → p.preempt = some (q, save) → (s.queue q).block = .preempt pid → Ends (.preemptSave pid) s fun t =>
      SameTileBytes s t ∧ t.part pid = Machine.Part.none ∧ (t.queue q).block = .none ∧
      (∀ c ∈ p.cores, (t.core c).part = none ∧ (t.core c).regs = (s.core c).regs) ∧
      (Mapped s q save (areaSize p) → s.tierPoison = [] → (s.queue p.queue).host = true → (∀ c ∈ p.cores, FitsArea s c) →
        p.width ≤ 64 → p.height ≤ 40 → p.hdr.gsize < 4 → p.hdr.iver < 2 ^ 32 →
        (∀ a b, a < areaSize p → b < areaSize p → s.translate q (save + a) = s.translate q (save + b) → a = b) →
        savedAt t q save 4 = p.hdr.iver ∧ savedAt t q (save + 8) 4 = p.roundPhase.getD 0 % 2 ^ 32 ∧
        ∀ i n j b, p.tiles[i]? = some n → j < coresOf p → b = tileArea p save i + 2 ^ 17 * j →
          (∀ r, r < 640 → savedAt t q (b + 64 * r) 64 = ((s.core (2 * n + j)).regs.get (.v r)).toNat ∧
            savedAt t q (b + 0xA000 + 64 * r) 64 = ((s.core (2 * n + j)).regs.get (.w r)).toNat) ∧
          (∀ r, r < 32 → savedAt t q (b + 0x14000 + 8 * r) 8 = ((s.core (2 * n + j)).regs.get (.k r)).toNat % 2 ^ 64 ∧
            savedAt t q (b + 0x14100 + 8 * r) 8 = ((s.core (2 * n + j)).regs.get (.a r)).toNat % 2 ^ 64) ∧
          (∀ r, r < 16 → savedAt t q (b + 0x14200 + 8 * r) 8 = ((s.core (2 * n + j)).regs.get (.x r)).toNat % 2 ^ 64) ∧
          savedAt t q (b + 0x14580) 8 = (s.core (2 * n + j)).lkstat.toNat ∧
          (∀ a, a < 2 ^ 18 → savedAt t q (tileArea p save i + 2 ^ 17 * coresOf p + a) 1 = (Memory.read (s.tile n).acc0 a).toNat ∧
            savedAt t q (tileArea p save i + 2 ^ 17 * coresOf p + 2 ^ 18 + a) 1 = (Memory.read (s.tile n).acc1 a).toNat) ∧
          ∀ a, a < p.hdr.lading → savedAt t q (tileArea p save i + 2 ^ 17 * coresOf p + 2 ^ 19 + a) 1 =
            (s.storeByte n ((s.core (2 * n)).lading + a)).toNat)) ∧
    (∀ tile : BitVec 15,
      (8 < ptidCol tile.toNat ∨ 5 < tile.toNat / 2 ^ 9 % 2 ^ 3 → Halts (.retire q tile) s q 1 1) ∧
      (ptidCol tile.toNat < 8 → tile.toNat / 2 ^ 9 % 2 ^ 3 ≤ 5 →
        (maskOf s (ptidField tile.toNat) (ptidRow tile.toNat) / 2 ^ ptidCol tile.toNat % 2 = 1 →
          shiftOf s (ptidField tile.toNat) (ptidRow tile.toNat) = none → Ends (.retire q tile) s fun t => QueueIs s t q (past s q 1)) ∧
        (maskOf s (ptidField tile.toNat) (ptidRow tile.toNat) = 0 → shiftOf s (ptidField tile.toNat) (ptidRow tile.toNat) = none →
          Table.get 0 s.lateDead (ptidField tile.toNat * 8 + ptidRow tile.toNat) = 0 → Ends (.retire q tile) s fun t => SameTileBytes s t ∧ (t.queue q).block = .retire tile.toNat false ∧
            ∃ x, shiftOf t (ptidField tile.toNat) (ptidRow tile.toNat) = some x ∧ x.dead = ptidCol tile.toNat ∧ x.step = 1))) ∧
    (∀ (scope : BitVec 4) (tile : BitVec 15),
      (3 < scope.toNat → Halts (.selftest q scope tile) s q 1 1) ∧
      (scope.toNat ≤ 3 → TargetFree s scope.toNat tile.toNat → Ends (.selftest q scope tile) s fun t =>
        QueueIs { s with free := t.free } t q { past s q 1 with block := .test } ∧
        ∃ fail, Scheduled t (s.now + testTime scope.toNat) rankAfter (.selftestComplete q scope.toNat tile.toNat fail)) ∧
      (scope.toNat ≤ 3 → ¬ TargetFree s scope.toNat tile.toNat → Ends (.selftest q scope tile) s fun t =>
        QueueIs s t q { past s q 1 with block := .testWait scope.toNat tile.toNat })) ∧
    (∀ scope tile, (s.queue q).block = .test → Ends (.selftestComplete q scope tile false) s fun t =>
      t.cores = s.cores ∧ SameTileBytes s t ∧ (t.queue q).block = .none ∧
        (((s.queue q).evtail + 128 - (s.queue q).evhead) % 128 ≠ 64 → (t.queue q).evtail = ((s.queue q).evtail + 1) % 128) ∧
        (((s.queue q).evtail + 128 - (s.queue q).evhead) % 128 = 64 → (t.queue q).evovf = true)) ∧
    (∀ scope tile, Runs (.selftestComplete 16 scope tile false) s s ∧
      Runs (.selftestComplete 16 scope tile true) s { s with deadFields := ptidField tile :: s.deadFields })

/-- R191, R398, R426, R427. Ownership: a claim on a module whose lease is dead succeeds, as does a claim of a lower link on the cycle of
another; any other fails, and an OP that is none of the four has no effect and sets FAIL. The owner alone renews, hands over and
releases, and its register writes alone count; the lease ends at its expiry. A write of JOBMAP has firmware apply the map it names.
What OWNER shows once the lease has ended is the model's reading (log entry 37); when firmware applies a map, and that a later map
comes with the next swap, are the model's (21). -/
def Obligations.HostCommands : Prop :=
  ∀ (s : State) (h : Nat), Whole s → h < 4 →
    (¬ (s.lease.valid = true ∧ s.now < s.lease.expiry) → Ends (.ownershipClaim h) s fun t =>
      Leased s t h s.now (s.lease.failed.filter fun g => decide (g ≠ h))) ∧
    (s.lease.valid = true → s.now < s.lease.expiry →
      (s.lease.claimed = s.now → h < s.lease.owner → Ends (.ownershipClaim h) s fun t => ∃ f, Leased s t h s.now f ∧
        s.lease.owner ∈ f ∧ h ∉ f) ∧
      (s.lease.claimed ≠ s.now ∨ s.lease.owner ≤ h → Ends (.ownershipClaim h) s fun t =>
        ∃ f, t = { s with lease := { s.lease with failed := f } } ∧ h ∈ f)) ∧
    (Owns s h →
      (Ends (.ownershipRenew h) s fun t => Leased s t h s.lease.claimed (s.lease.failed.filter fun g => decide (g ≠ h))) ∧
      (∀ g, g < 4 → Ends (.ownershipHandover h g) s fun t => ∃ f, t.lease = { s.lease with
          valid := true, owner := g, succ := g, expiry := s.now + 1200000000, failed := f } ∧ h ∉ f ∧
        Scheduled t (s.now + 1200000000) rankRelease .leaseExpiry ∧ t = { s with agenda := t.agenda, order := t.order, lease := t.lease }) ∧
      (Ends (.ownershipRelease h) s fun t => ∃ f, t = { s with lease := { s.lease with valid := false, failed := f } } ∧ h ∉ f)) ∧
    (¬ Owns s h → ∀ i ∈ [Instr.ownershipRenew h, .ownershipHandover h 0, .ownershipRelease h], Ends i s fun t =>
      ∃ f, t = { s with lease := { s.lease with failed := f } } ∧ h ∈ f) ∧
    (s.lease.expiry ≤ s.now → Runs .leaseExpiry s { s with lease := { s.lease with valid := false } }) ∧
    (s.now < s.lease.expiry → Runs .leaseExpiry s s) ∧
    (¬ Owns s h → ∀ (off q : Nat) (v : Word), q < 16 → off ≠ 8 → ∀ i ∈ [Instr.registerWrite h off v, .cqtailWrite h q v, .cqctlWrite h q v,
      .evovfClear h q, .cqevtWrite h q v], Runs i s s) ∧
    (∀ v : Word, (v.toNat / 2 ^ 40 % 8 ∈ [1, 2, 3, 4] → Runs (.registerWrite h 8 v) s s) ∧
      (v.toNat / 2 ^ 40 % 8 ∉ [1, 2, 3, 4] → Ends (.registerWrite h 8 v) s fun t =>
        ∃ f, t = { s with lease := { s.lease with failed := f } } ∧ h ∈ f)) ∧
    (s.boot ≠ 5 ∨ Table.get none s.jobMaps (s.lease.owner * 2 ^ 64 + s.mgmtReg 0x38) = none → Runs (.registerWrite 4 0x38 0) s s) ∧
    (∀ m, s.boot = 5 → Table.get none s.jobMaps (s.lease.owner * 2 ^ 64 + s.mgmtReg 0x38) = some m →
      Ends (.registerWrite 4 0x38 0) s fun t => SameBytes s t ∧ t.cores = s.cores ∧ t.jobRanks = m.ranks ∧ t.jobPlanes = m.planes ∧
        t.jobUses = m.uses ∧ t.serving = m.serving ∧ t.guard_ = m.guard_ ∧ t.spares = m.spares ∧ t.domain = m.domain ∧
        (s.jobRanks = [] → t.topver = m.topver % 2 ^ 16 ∧ t.tiles = s.tiles) ∧
        (s.jobRanks ≠ [] → t.topver = s.topver ∧ t.armed.isSome = true)) ∧
    (Owns s h → ∀ (q : Nat) (v : Word), q < 16 →
      Runs (.registerWrite h 0 v) s { s with modid := v.toNat % 2 ^ 18 } ∧
      (∀ off, off = 0x18 ∨ off = 0x20 ∨ off = 0x28 ∨ off = 0x30 ∨ off = 0x38 ∧ s.boot ≠ 5 → Ends (.registerWrite h off v) s fun t =>
        t.mgmtReg off = (if off = 0x20 then v.toNat % 2 ^ 32 else if off = 0x38 then v.toNat / 2 ^ 63 * 2 ^ 63 + v.toNat % 2 ^ 48 else v.toNat) ∧
        (∀ o, o ≠ off → t.mgmtReg o = s.mgmtReg o) ∧ t = { s with mgmt := t.mgmt }) ∧
      (s.boot = 5 → Ends (.registerWrite h 0x38 v) s fun t => t.mgmtReg 0x38 = v.toNat / 2 ^ 63 * 2 ^ 63 + v.toNat % 2 ^ 48 ∧
        (∀ o, o ≠ 0x38 → t.mgmtReg o = s.mgmtReg o) ∧
        t = { s with mgmt := t.mgmt, free := t.free, agenda := t.agenda, order := t.order } ∧
        ∃ n, s.now < n ∧ Scheduled t n rankAfter (.registerWrite 4 0x38 0)) ∧
      Runs (.registerWrite h (0x1000 + 0x40 * q) v) s
        (s.setQueue q { s.queue q with host := decide (v.toNat / 2 ^ 63 = 1), base := v.toNat % 2 ^ 48 }) ∧
      Runs (.registerWrite h (0x1008 + 0x40 * q) v) s (s.setQueue q { s.queue q with log2 := v.toNat % 2 ^ 5 }) ∧
      Runs (.registerWrite h (0x1038 + 0x40 * q) v) s (s.setQueue q { s.queue q with evhead := v.toNat % 2 ^ 7 }) ∧
      (Ends (.registerWrite h (0x2000 + 0x40 * q) v) s fun t => t = { s with handleRegs := t.handleRegs } ∧
        handleWords t q 0 = v.toNat % 2 ^ 48 / 2 ^ 6 * 2 ^ 6 + v.toNat % 2) ∧
      (Ends (.registerWrite h (0x2008 + 0x40 * q) v) s fun t => t = { s with handleRegs := t.handleRegs } ∧
        handleWords t q 1 = v.toNat % 2 ^ 32) ∧
      (Ends (.cqtailWrite h q v) s fun t => QueueIs s t q { s.queue q with tail := v.toNat % 2 ^ 21 }) ∧
      Runs (.evovfClear h q) s (s.setQueue q { s.queue q with evovf := false }) ∧
      Runs (.cqevtWrite h q v) s (s.setQueue q { s.queue q with evt := v.toNat % 2 ^ 48, evhead := 0, evtail := 0 }) ∧
      ∃ x, x = { s.queue q with waitmask := BitVec.ofNat 16 (v.toNat / 2 ^ 16), priv := decide (v.toNat / 2 ^ 8 % 2 = 1),
                                prio := v.toNat / 2 ^ 4 % 2 ^ 3, en := decide (v.toNat % 2 = 1) } ∧
        ((s.queue q).en = true ∨ v.toNat % 2 = 0 → Ends (.cqctlWrite h q v) s fun t => QueueIs s t q x) ∧
        ((s.queue q).en = false → v.toNat % 2 = 1 → 9 ≤ (s.queue q).log2 → (s.queue q).log2 ≤ 20 →
          Ends (.cqctlWrite h q v) s fun t => QueueIs s t q { x with halt := false, err := 0, at_ := x.head }) ∧
        ((s.queue q).en = false → v.toNat % 2 = 1 → (s.queue q).log2 < 9 ∨ 20 < (s.queue q).log2 →
          Ends (.cqctlWrite h q v) s fun t => QueueIs s t q { x with halt := true, err := 7, at_ := x.head, word := x.head }))

/-- R259-R261, R34, R428-R431. HANDLE_OPEN opens a free slot on the registers' range and HANDLE_FREE frees an open one, each with its STATUS; a
power-on gives the machine of reset; bring-up begins on the owner's GO and ends in the running module or in failure 0x8002; ATTEST
answers the nonce and changes nothing else.
The order of the handle checks is the model's reading (log entry 37), as is that GO is ignored also in STATUS 5 and that ATTEST answers in
any STATUS (34); the values of reset and of bring-up's stages are its choice (1, 2, 30 and 36). -/
def Obligations.HandlesAndBoot : Prop :=
  (∀ (s : State) (h ctx slot : Nat), Whole s → h < 4 → ctx < 16 →
    (¬ Owns s h → Runs (.handleOpen h ctx slot) s s ∧ Runs (.handleFree h ctx slot) s s) ∧
    (Owns s h →
      (1024 ≤ slot → Ends (.handleOpen h ctx slot) s fun t => Refused s t ctx 3) ∧
      (slot < 1024 → (slotOf s ctx slot).state ≠ .free → Ends (.handleOpen h ctx slot) s fun t => Refused s t ctx 1) ∧
      (∀ base len, base = handleWords s ctx 0 / 2 ^ 6 % 2 ^ 42 * 64 → len = handleWords s ctx 1 → slot < 1024 →
        (slotOf s ctx slot).state = .free →
        (len = 0 ∨ 2 ^ 48 < base + 64 * len → Ends (.handleOpen h ctx slot) s fun t => Refused s t ctx 4) ∧
        (len ≠ 0 → base + 64 * len ≤ 2 ^ 48 → Ends (.handleOpen h ctx slot) s fun t =>
          Answered s t ctx slot 0 (slot * 256 + (slotOf s ctx slot).gen)
            { slotOf s ctx slot with base := base, len := len, ro := decide (handleWords s ctx 0 % 2 = 1), state := .opened })) ∧
      ∀ handle, slot = handle / 256 →
        (1024 ≤ slot → Ends (.handleFree h ctx handle) s fun t => Refused s t ctx 3) ∧
        (slot < 1024 → (slotOf s ctx slot).state ≠ .opened ∨ (slotOf s ctx slot).gen ≠ handle % 256 →
          Ends (.handleFree h ctx handle) s fun t => Refused s t ctx 2) ∧
        (slot < 1024 → (slotOf s ctx slot).state = .opened → (slotOf s ctx slot).gen = handle % 256 →
          Ends (.handleFree h ctx handle) s fun t =>
            Answered s t ctx slot 0 handle { slotOf s ctx slot with gen := (handle % 256 + 1) % 256, state := .freeing } ∧
            ((slotOf s ctx slot).count = 0 → Scheduled t (s.now + 1) rankQuay (.handleSlotFreed ctx slot))))) ∧
  (∀ s : State, Runs .powerOn s { State.reset with free := s.free, hostMem := s.hostMem, images := s.images, jobMaps := s.jobMaps }) ∧
  (∀ (s : State) (h : Nat) (failed fields : List Nat), h < 4 →
    (Owns s h → s.boot = 0 ∨ 0x8001 ≤ s.boot → Ends (.bringUp h failed fields) s fun t =>
      t = { s with boot := 1, nohist := false, free := t.free, agenda := t.agenda, order := t.order } ∧
      ∃ n, s.now ≤ n ∧ n < s.now + 3600000000 ∧ Scheduled t n rankAfter (.bringUp 4 failed fields)) ∧
    (¬ Owns s h → Runs (.bringUp h failed fields) s s) ∧ (0 < s.boot → s.boot < 0x8001 → Runs (.bringUp h failed fields) s s)) ∧
  (∀ (s : State) (failed fields : List Nat), Whole s →
    (s.boot = 3 → Ends (.bringUp 4 failed fields) s fun t => t.boot = 4 ∧ t.tier = [] ∧ t.pages = [] ∧ t.handles = [] ∧
      t.hostMem = s.hostMem ∧ (∀ n b, Memory.read (t.tile n).store b = 0 ∧ Memory.read (t.tile n).om b = 0 ∧ Memory.read (t.tile n).acc0 b = 0 ∧
        Memory.read (t.tile n).acc1 b = 0) ∧
      ∃ n, s.now ≤ n ∧ n < s.now + 3600000000 ∧ Scheduled t n rankAfter (.bringUp 4 failed fields)) ∧
    (s.boot = 4 → s.mgmtReg 0x28 = 0 → Ends (.bringUp 4 failed fields) s fun t =>
      t = { s with boot := t.boot, free := t.free, agenda := t.agenda, order := t.order, nohist := true, mapver := t.mapver, spareRow := t.spareRow, deadMask := t.deadMask,
                   deadFields := t.deadFields, shifts := t.shifts, zones := t.zones, tickOn := t.tickOn, tickOff := t.tickOff,
                   adj := t.adj, adjAt := t.adjAt, tadj := t.tadj, topver := t.topver, lost := t.lost, lateDead := t.lateDead } ∧
      (t.boot = 5 ∨ t.boot = 0x8002) ∧ (s.mgmtReg 0x38 = 0 → t.agenda = s.agenda ∧ t.order = s.order) ∧
      (s.mgmtReg 0x38 ≠ 0 → ∃ n, s.now < n ∧ Scheduled t n rankAfter (.registerWrite 4 0x38 0)) ∧ (t.boot = 5 → t.mapver = 0 ∧ t.tick = 0 ∧ t.topver = 0 ∧ t.lost = false)) ∧
    (5 ≤ s.boot → Runs (.bringUp 4 failed fields) s s)) ∧
  ∀ (s : State) (h addr : Nat), h < 4 → addr < 2 ^ 48 →
    (¬ Owns s h → Runs (.attest h addr) s s) ∧
    (Owns s h → Whole s → Ends (.attest h addr) s fun t => t = { s with mgmt := t.mgmt, hostMem := t.hostMem } ∧
      t.mgmtReg 0x40 = addr ∧ ∀ a, a < s.bus addr + 64 → Memory.read t.hostMem a = Memory.read s.hostMem a)


/-- R35, R40, R178, R204-R206. At its start a core runs from its entry, whose run is expanded; the parts of a group program that has come
together start at one tick, the largest of their reports + 3,200 rounded up to 64, and a second after the first report each that has
not started is refused with error 0x0A; a straggler's record is written when the latest arrival is late, here or on another module, and
nothing otherwise.
The entry of core 1 of a split tile and the cycle of a straggler's record are the model's reading (log entries 26 and 27), as are the
report of a part and what is known of the other modules' arrivals (38 and 53). -/
def Obligations.Starts : Prop :=
  (∀ (s : State) (c pid : Nat), Whole s → (s.core c).part = some pid → Ends (.startEntry c) s fun t => SameBytes s t ∧
    (∀ d, d ≠ c → t.core d = s.core d) ∧ (t.core c).status = .running ∧ (t.core c).relAt = s.now ∧ (t.core c).due = s.now ∧
    (t.core c).regs = (s.core c).regs ∧ (t.core c).pc = (s.core c).pc ∧ (t.core c).half = false ∧
    (t.core c).half0 = some { start := (s.core c).pc, ready := none } ∧
    ((s.core c).gsize = 0 ∨ (s.core c).pos = 0 → ∃ n, s.now ≤ n ∧ Scheduled t n rankIssue (.bundleIssue c (s.core c).gen none))) ∧
  (∀ (s : State) (c : Nat), (s.core c).part = none → Runs (.startEntry c) s s) ∧
  (∀ (s : State) (g : Nat) (ticks ps : List Nat), Whole s →
    ps = (s.groupWaiting g).filter (fun p => decide ((s.part p).t0 ≤ s.now)) →
    (ps = [] → Runs (.groupT0Agreement g ticks) s s) ∧
    (∀ p, ps.head? = some p → ps.length + ticks.length < (s.part p).hdr.gcount → Runs (.groupT0Agreement g ticks) s s) ∧
    (∀ p m t0, ps.head? = some p → (s.part p).hdr.gcount ≤ ps.length + ticks.length →
      (∀ k ∈ ticks, k ≤ m) → (∀ k ∈ ps, s.tickAt (s.part k).t0 ≤ m) → (m ∈ ticks ∨ ∃ k ∈ ps, m = s.tickAt (s.part k).t0) →
      t0 = s.cycleOf ((m + 3200 + 63) / 64 * 64) → Ends (.groupT0Agreement g ticks) s fun t =>
      SameBytes s t ∧ t.cores = s.cores ∧ (∀ e ∈ t.agenda, e.ev ≠ .groupColaunchTimeout g) ∧
        ∀ pid ∈ ps, (t.part pid).status = .running ∧ (t.part pid).t0 = t0 ∧
        ∀ c ∈ (s.part pid).cores, Scheduled t (t0 + (s.core c).pos) rankRelease (.startEntry c))) ∧
  (∀ (s : State) (q pid : Nat) (im : Image) (p : Machine.Part), Whole s → q < 16 → p = s.part pid → (s.queue q).block = .start pid →
    p.status = .waiting → p.t0 = 0 → p.hdr.gcount ≠ 0 → p.resumeSave = none → s.image p.image = some im →
    (∀ n ∈ p.tiles, s.quaysDrained n = true) → NoStep s pid → Ends (.launchPlacement q) s fun t => (t.part pid).status = .waiting ∧
      ∃ n, s.now ≤ (t.part pid).t0 ∧ Scheduled t n rankAfter (.groupColaunchTimeout p.hdr.gtag) ∧
        ((∀ e ∈ s.agenda, e.ev ≠ .groupColaunchTimeout p.hdr.gtag) → n = (t.part pid).t0 + 1200000000) ∧
        (∀ m, (∃ e ∈ s.agenda, e.ev = .groupColaunchTimeout p.hdr.gtag) →
          (∀ e ∈ s.agenda, e.ev = .groupColaunchTimeout p.hdr.gtag → e.at_ = m) → n = min m ((t.part pid).t0 + 1200000000))) ∧
  (∀ (s : State) (g q : Nat), Whole s → q < 16 →
    (∀ l, (s.queue q).block = .place → (s.queue q).launch = some l → l.hdr.gcount ≠ 0 → l.hdr.gtag = g →
      Ends (.groupColaunchTimeout g) s fun t => SameBytes s t ∧ (t.queue q).block = .none ∧ (t.queue q).launch = none ∧
        (t.queue q).halt = true ∧ (t.queue q).err = 10) ∧
    (∀ pid, (s.queue q).block = .start pid → (s.part pid).status = .waiting → (s.part pid).hdr.gcount ≠ 0 → (s.part pid).hdr.gtag = g →
      (∀ p, p ≠ q → (s.queue p).block ≠ .start pid) → Ends (.groupColaunchTimeout g) s fun t => SameBytes s t ∧
        (t.queue q).block = .none ∧ (t.queue q).halt = true ∧ (t.queue q).err = 10 ∧ t.part pid = Machine.Part.none)) ∧
  ∀ (s : State) (pid epoch first : Nat), Whole s → (∃ p ∈ s.scopeOf pid, ∃ c a, (s.phaser p 0).arrival c = some a ∧ a.time = first) →
    (∀ p ∈ s.scopeOf pid, ∀ d b, (s.phaser p 0).arrival d = some b → first ≤ b.time) →
    ((s.phaser pid 0).epoch ≠ epoch ∨ (s.part pid).hdr.strag = 0 ∨ ((∀ p ∈ s.scopeOf pid, ∀ d ∈ (s.phaser p 0).counted, ∃ b,
      (s.phaser p 0).arrival d = some b ∧ b.time ≤ first + (s.part pid).hdr.strag) ∧
      ((s.phaser pid 0).release = none ∨ (s.part pid).farLast ≤ first + (s.part pid).hdr.strag)) → Runs (.stragglerEvent pid epoch) s s) ∧
    (∀ q k used, q = (s.part pid).queue → k = 1 + ((s.part pid).tiles.length + 511) / 512 →
      used = ((s.queue q).evtail + 128 - (s.queue q).evhead) % 128 → used ≤ 64 → (s.queue q).evhead < 128 → (s.phaser pid 0).epoch = epoch →
      (s.part pid).hdr.strag ≠ 0 → (∃ p ∈ s.scopeOf pid, ∃ d ∈ (s.phaser p 0).counted, ∀ b, (s.phaser p 0).arrival d = some b →
        first + (s.part pid).hdr.strag < b.time) ∨
        (s.phaser pid 0).release ≠ none ∧ first + (s.part pid).hdr.strag < (s.part pid).farLast → Ends (.stragglerEvent pid epoch) s fun t => SameTileBytes s t ∧
        t.cores = s.cores ∧ t.parts = s.parts ∧ (t.queue q).evtail % 128 = ((s.queue q).evtail + min k (64 - used)) % 128 ∧
        (64 < used + k → (t.queue q).evovf = true))

/-- R21, R64, R348, R349. A core that may issue its next bundle does what the bundle's verdict says: it issues, with its slots in the latch
and no register changed; waits or slips and tries again on the next cycle; or takes the trap in place of it. What no longer holds for
the core has no effect.
The cycle of an imprecise cause under a slip and the residency of an expanding run are the model's reading (log entry 13), and the tile's
memories are taken without errors where the machine reads code and arrays (R373). -/
def Obligations.IssueOfABundle : Prop :=
  (∀ (s : State) (c gen : Nat), (s.core c).gen ≠ gen ∨ (s.core c).status ≠ .running ∧ (s.core c).waits = [] →
    Runs (.bundleIssue c gen none) s s) ∧
  (∀ (s : State) (c bits : Nat) (moves : Bool), Whole s → Ready1 s c → NoTrapDue s c → s.fetch c = .bits bits moves →
    (s.verdict c (s.core c).pc bits none none = .go → Clean s (c / 2) → Ends (.bundleIssue c (s.core c).gen none) s fun t => SameBytes s t ∧
      t.latch.active = true ∧ t.latch.core = c ∧ t.latch.addr = (s.core c).pc ∧ (t.core c).regs = (s.core c).regs ∧
      (t.core c).slip = none ∧ (∀ d, d ≠ c → t.core d = s.core d)) ∧
    (s.verdict c (s.core c).pc bits none none = .wait → Ends (.bundleIssue c (s.core c).gen none) s fun t =>
      OnlyAgenda s t ∧ Scheduled t (s.now + 1) rankIssue (.bundleIssue c (s.core c).gen none)) ∧
    (s.verdict c (s.core c).pc bits none none = .slip → Ends (.bundleIssue c (s.core c).gen none) s fun t =>
      Scheduled t (s.now + 1) rankIssue (.bundleIssue c (s.core c).gen none) ∧
      t.core c = { s.core c with slip := some ((s.core c).slip.getD s.now) } ∧
      ((s.core c).slip = none → Scheduled t (s.now + (s.core c).slipBound) rankIssue (.slipTimeout c (s.core c).gen))) ∧
    (∀ i : TrapInfo, s.verdict c (s.core c).pc bits none none = .trap i → (s.core c).hm = false → i.cause ≠ 0x18 →
      Ends (.bundleIssue c (s.core c).gen none) s fun t => Entered s t c (s.core c).pc i)) ∧
  (∀ (s : State) (c : Nat) (i : TrapInfo), Whole s → Ready1 s c → (s.core c).hm = false → i.cause ≠ 0x18 →
    ((s.core c).imprecise s.now = some i → Ends (.bundleIssue c (s.core c).gen none) s fun t =>
      Entered s t c (s.core c).pc i) ∧
    (NoTrapDue s c → s.fetch c = .bad i → Ends (.bundleIssue c (s.core c).gen none) s fun t => Entered s t c (s.core c).pc i) ∧
    ((s.core c).imprecise s.now = none → (s.core c).forced = some i → Ends (.bundleIssue c (s.core c).gen none) s fun t => Entered s t c (s.core c).pc i ∧
      (t.core c).forced = none)) ∧
  (∀ (s : State) (c bits : Nat) (moves : Bool), Whole s → (s.core c).status = .running → (s.core c).gsize = 0 →
    (s.core c).slip ≠ none → s.fetch c = .bits bits moves →
    (s.verdict c (s.core c).pc bits none none = .go → Runs (.slipTimeout c (s.core c).gen) s s) ∧
    (∀ i : TrapInfo, s.verdict c (s.core c).pc bits none none = .trap i → i.cause = 0x05 → (s.core c).hm = false →
      Ends (.slipTimeout c (s.core c).gen) s fun t => Entered s t c (s.core c).pc i)) ∧
  (∀ (s : State) (c : Nat), Whole s → Clean s (c / 2) → (s.core c).status = .running → (s.core c).gsize = 0 ∨ (s.core c).pos = 0 →
    Ends (.handlerEntry c (s.core c).gen) s fun t => SameBytes s t ∧ (t.core c).regs = (s.core c).regs ∧
      (∀ d, d ≠ c → t.core d = s.core d) ∧ ∃ n, s.now ≤ n ∧ Scheduled t n rankIssue (.bundleIssue c (s.core c).gen none)) ∧
  ∀ (s : State) (c : Nat) (w : Wait), Whole s → (s.core c).status = .running → (s.core c).gsize = 0 → (s.core c).waits = [w] →
    w.limit = some s.now → (s.core c).hm = false → (s.pollWait c w = .pending →
      ((s.core c).imprecise s.now = none → Ends (.waitBoundExceeded c (s.core c).gen w.slot) s fun t =>
        Entered s t c (s.core c).pc (s.waitInfo c w) ∧ (t.core c).savedWaits = [w] ∧ (t.core c).regs.tcause = 0x0F) ∧
      ∀ i : TrapInfo, (s.core c).imprecise s.now = some i → i.cause ≠ 0x18 → Ends (.waitBoundExceeded c (s.core c).gen w.slot) s fun t =>
        Entered s t c (s.core c).pc i ∧ (t.core c).savedWaits = [w]) ∧
    (∀ u n, s.pollWait c w = .done u n → Runs (.waitBoundExceeded c (s.core c).gen w.slot) s s)

/-- R22, R23, R83, R358-R360. At its cycle a write reaches its register unless one that prevails over it lands with it, the flags accrue, and
nothing that is not due moves; a store of an uncommitted segment is withheld and reads back, any other reaches the bank; a commit
writes what its segment withheld.
The order of what happens on one cycle is the model's reading (log entry 40). -/
def Obligations.Landings : Prop :=
  (∀ (s : State) (c : Nat), Whole s → Ends (.resultLanding c) s fun t =>
    (t.core c).regs.flights = (s.core c).regs.flights.filter (fun f => decide (s.now < f.land)) ∧
    (∀ d, d ≠ c → t.core d = s.core d) ∧ SameBytes s t ∧
    (∀ f r, Prevails s c f → f.dest = .reg r → (t.core c).regs.get r = ((s.core c).regs.put r f.val).get r) ∧
    (∀ r, (∀ f ∈ (s.core c).regs.flights, f.land ≤ s.now → f.dest ≠ .reg r) → (t.core c).regs.get r = (s.core c).regs.get r) ∧
    ∀ i, (t.core c).regs.fflags.getLsbD i = true ↔ (s.core c).regs.fflags.getLsbD i = true ∨
      ∃ f ∈ (s.core c).regs.flights, f.land ≤ s.now ∧ f.dest = .flags ∧ i < 5 ∧ f.val.getLsbD i = true) ∧
  (∀ (s : State) (c seg : Nat) (bytes : List (Nat × Byte)), Whole s → (bytes.map Prod.fst).Nodup →
    ((∀ e ∈ (s.core c).snaps, e.1 ≠ seg) → Ends (.storePerform c seg bytes) s fun t =>
      (∀ a b, (a, b) ∈ bytes → Memory.read (t.tile (c / 2)).store a = b) ∧
      (∀ a, (∀ b, (a, b) ∉ bytes) → Memory.read (t.tile (c / 2)).store a = Memory.read (s.tile (c / 2)).store a) ∧
      ∀ n, n ≠ c / 2 → t.tile n = s.tile n) ∧
    ((∃ e ∈ (s.core c).snaps, e.1 = seg) → Ends (.storePerform c seg bytes) s fun t => SameBytes s t ∧ t.tiles = s.tiles ∧
      (∀ d, d ≠ c → t.core d = s.core d) ∧ (c % 2 = 0 → ∀ a b, (a, b) ∈ bytes → t.storeByte (c / 2) a = b) ∧
      ∀ a, (∀ b, (a, b) ∉ bytes) → t.storeByte (c / 2) a = s.storeByte (c / 2) a)) ∧
  ∀ (s : State) (c seg : Nat), Whole s →
    ((∀ e ∈ (s.core c).snaps, e.1 ≠ seg) → Runs (.segmentCommit c seg) s s) ∧
    ((∃ e ∈ (s.core c).snaps, e.1 = seg) → Clean s (c / 2) → Ends (.segmentCommit c seg) s fun t =>
      (∀ e ∈ (t.core c).overlay, e.2.2 ≠ seg) ∧ (∀ e ∈ (t.core c).held, e.seg ≠ seg) ∧ (∀ e ∈ (t.core c).snaps, e.1 ≠ seg) ∧
      (t.core c).segseq = ((s.core c).segseq + 1) % 2 ^ 32 ∧ (t.core c).regs = (s.core c).regs ∧
      (∀ d, d ≠ c → t.core d = s.core d) ∧ (∀ n, n ≠ c / 2 → t.tile n = s.tile n) ∧
      (∀ a, (∀ e ∈ (s.core c).overlay, e.1 = a → e.2.2 ≠ seg) →
        Memory.read (t.tile (c / 2)).store a = Memory.read (s.tile (c / 2)).store a) ∧
      ∀ e, (s.core c).overlay.find? (fun x => decide (x.2.2 = seg) && decide (x.1 = e.1)) = some e →
        Memory.read (t.tile (c / 2)).store e.1 = e.2.1)

/-- R172, R176, R183, R189, R190, R220, R228, R230. A delayed arrival is made on the first cycle that nothing delays it; END's arrives with the
tile's leaving marked, or leaves at once where the core has yet to observe a release; a release tick clears its phaser's arrivals, counts its epoch and tells every member, whose registration changes
as it asked; a core that observes its lock's release begins the next phase with SCYC 0, its LKSTAT, its channels' counts at zero and
the inputs of tree flits that have come.
The cycle of the round's copy and of a leaving member's release are the model's reading (log entry 26), as is a member that has arrived
without ROUND at a lock that becomes a round lock (15). -/
def Obligations.ReleasesAndPhases : Prop :=
  (∀ (s : State) (c gen pid : Nat) (a : Arrival) (round : Bool), Whole s → (s.core c).part = some pid → (s.core c).arriving = some a →
    (round = true ↔ a.round = true ∨ s.scopeRound pid = true) →
    ((s.core c).phase % 2 = 0 → round = false → s.settled c round = true) ∧
    (s.settled c round = false → Ends (.delayedArrival c gen) s fun t => OnlyAgenda s t ∧
      Scheduled t (s.now + 1) rankAfter (.delayedArrival c gen)) ∧
    (s.settled c round = true → Ends (.delayedArrival c gen) s fun t => SameBytes s t ∧ (t.core c).arriving = none ∧
      (t.core c).regs = (s.core c).regs ∧ (t.core c).segOpen = none ∧
      (t.phaser pid 0).arrival c = some { a with time := s.now - (s.core c).pos } ∧ HasArrived ((t.phaser pid 0).member c) ∧
      ∀ d, d ≠ c → (t.phaser pid 0).arrival d = (s.phaser pid 0).arrival d ∨
        a.round = true ∧ s.scopeRound pid = false ∧ s.quiet d = false ∧ (t.phaser pid 0).arrival d = none)) ∧
  (∀ (s : State) (c gen : Nat), (s.core c).arriving = none → Runs (.delayedArrival c gen) s s) ∧
  (∀ (s : State) (c pid due : Nat), Whole s → (s.core c).part = some pid → (s.part pid).ending = true → s.workDone pid = false →
    Ends (.endArrival c due) s fun t => OnlyAgenda s t ∧ Scheduled t (s.now + 1) rankAfter (.endArrival c due)) ∧
  (∀ (s : State) (c pid due : Nat), Whole s → (s.core c).part = some pid →
    (s.part pid).ending = false →
    ((s.core c).endAt ≠ some due → Runs (.endArrival c due) s s) ∧
    ((s.core c).phase % 2 = 0 → (s.scopeRound pid = true → (s.unbindAll c).quiet c = true) →
      (s.unbindAll c).settledBy c (s.scopeRound pid) (max s.now (due + 1)) = true) ∧
    ((s.core c).endAt = some due → (s.unbindAll c).settledBy c (s.scopeRound pid) (max s.now (due + 1)) = false →
      Ends (.endArrival c due) s fun t => SameBytes s t ∧ t.cores = s.cores ∧ t.parts = s.parts ∧
        Scheduled t (s.now + 1) rankAfter (.endArrival c due)) ∧
    ((s.core c).endAt = some due → (s.unbindAll c).settledBy c (s.scopeRound pid) (max s.now (due + 1)) = true →
      ((s.phaser pid 0).member c).mode ≠ none →
      (¬ Unobserved s pid c → ¬ HasArrived ((s.phaser pid 0).member c) → Ends (.endArrival c due) s fun t => SameBytes s t ∧ (t.core c).endAt = none ∧
        (t.core c).regs = (s.core c).regs ∧
        (t.phaser pid 0).arrival c = some { Arrival.plain with time := s.now - (s.core c).pos, ended := true }) ∧
      (∀ a, ¬ Unobserved s pid c → HasArrived ((s.phaser pid 0).member c) → (s.phaser pid 0).arrival c = some a → Ends (.endArrival c due) s fun t =>
        SameBytes s t ∧ (t.core c).endAt = none ∧ (t.core c).regs = (s.core c).regs ∧
        (t.phaser pid 0).arrival c = some { a with ended := true }) ∧
      (Unobserved s pid c → (∃ d ∈ (s.phaser pid 0).counted, d ≠ c) →
        Ends (.endArrival c due) s fun t => SameBytes s t ∧ (t.core c).endAt = none ∧ (t.core c).regs = (s.core c).regs ∧
        ((t.phaser pid 0).member c).mode = none))) ∧
  (∀ (s : State) (pid : Nat) (x : Phaser), Whole s → x = s.phaser pid 0 →
    (x.release ≠ some s.now ∨ (s.part pid).ending = true → Runs (.lockRelease pid 0 none) s s) ∧
    (x.release = some s.now → (s.part pid).ending = false → Quiet s pid → (s.part pid).preempt = none → (s.part pid).forced = false → (s.part pid).hdr.gcount = 0 →
      (∀ d a, x.arrival d = some a → a.ended = false) → x.counted ≠ [] → Ends (.lockRelease pid 0 none) s fun t => SameBytes s t ∧
        t.cores = s.cores ∧ (t.phaser pid 0).epoch = x.epoch + 1 ∧ (t.phaser pid 0).arrivals = [] ∧ (t.phaser pid 0).release = none ∧
        (t.phaser pid 0).members = x.members ∧ (t.part pid).windowed = (decide (s.phaseOf pid % 2 = 0) && (s.part pid).winNext) ∧
        ∀ c ∈ x.counted, Scheduled t (s.now + (s.core c).pos) rankRelease (.lockRelease pid 1 (some c)))) ∧
  (∀ (s : State) (c pid : Nat), Whole s → 
    ((s.core c).part ≠ some pid ∨ (s.core c).status = .stopped → Runs (.lockRelease pid 1 (some c)) s s) ∧
    ((s.core c).part = some pid → (s.core c).status ≠ .stopped → Ends (.lockRelease pid 1 (some c)) s fun t => SameBytes s t ∧
      (t.core c).phase = ((s.core c).phase + 1) % 2 ^ 32 ∧ (t.core c).relAt = t.now ∧ t.now = s.now ∧
      (t.core c).windowed = (s.part pid).windowed ∧ (t.core c).startLog = [] ∧
      (∀ n, s.chanCore (c / 2) n = c → Table.get Chan.reset (t.tile (c / 2)).chans n =
        { Chan.reset with merges := (Table.get Chan.reset (s.tile (c / 2)).chans n).merges }) ∧
      (∀ n, s.chanCore (c / 2) n ≠ c → Table.get Chan.reset (t.tile (c / 2)).chans n = Table.get Chan.reset (s.tile (c / 2)).chans n) ∧
      (t.core c).lkstat.toNat % 2 ^ 8 = (s.part pid).lk % 2 ^ 8 ∧ (t.core c).regs = (s.core c).regs ∧
      (∀ d, d ≠ c → t.core d = s.core d) ∧
      (t.phaser pid 0).member c = { (s.phaser pid 0).member c with
        seen := ((s.phaser pid 0).member c).seen + 1, view := ((s.phaser pid 0).member c).mode })) ∧
  (∀ (s : State) (pid ph : Nat) (x : Phaser), Whole s → x = s.phaser pid ph →
    (x.release ≠ some s.now → Runs (.phaserRelease pid ph none) s s) ∧
    (x.release = some s.now → Ends (.phaserRelease pid ph none) s fun t => SameBytes s t ∧ t.cores = s.cores ∧
      (t.phaser pid ph).epoch = x.epoch + 1 ∧ (t.phaser pid ph).arrivals = [] ∧ (t.phaser pid ph).release = none ∧
      ∀ c, ((x.member c).pending = none → (t.phaser pid ph).member c = x.member c) ∧
        (∀ m, (x.member c).pending = some m → ((t.phaser pid ph).member c).mode = m ∧ ((t.phaser pid ph).member c).pending = none) ∧
        ((x.member c).mode ≠ none → Scheduled t (s.now + (s.core c).pos) rankRelease (.phaserRelease pid ph (some c))))) ∧
  ∀ (s : State) (pid ph c : Nat), Whole s →
    ((s.core c).part ≠ some pid → Runs (.phaserRelease pid ph (some c)) s s) ∧
    ((s.core c).part = some pid → Ends (.phaserRelease pid ph (some c)) s fun t => SameBytes s t ∧
      (t.core c).regs = (s.core c).regs ∧ (∀ d, d ≠ c → t.core d = s.core d) ∧
      (t.phaser pid ph).member c = { (s.phaser pid ph).member c with
        seen := ((s.phaser pid ph).member c).seen + 1, view := ((s.phaser pid ph).member c).mode })


/-- R355, R361, R363-R366. A mismatch in a compute phase rewinds its core to its segment's entry, to issue again 24 cycles on; one in an
exchange phase reruns the phase 1,024 cycles on, or 8,192 in a group program, its flits discarded and the tiles that have not left as at the release; the
round's copies hold the ladings, and a restored partition, once what its tiles had begun is done, begins at its resume entry with the
phase of the last round and the ladings of its own mirrors, or of the buddies' in a lost zone, or at START before the first round.
What comes back with a rewound segment and with a rerun phase is the model's reading (log entries 24, 25, 28 and 29), as are where core 1
of a split tile begins (27) and that a part of a group program restored after an error of its own module starts alone (38). -/
def Obligations.Rollback : Prop :=
  (∀ (s : State) (c n : Nat) (a : CodeAddr),
    (s.core c).split = true ∨ (s.core c).part = none ∨ (s.core c).status = .stopped ∨ s.now ≠ n + 3 → Runs (.signatureMismatch c a n) s s) ∧
  (∀ (s : State) (c n pid seg : Nat) (a : CodeAddr) (snap : Snap), Whole s → s.now = n + 3 → (s.core c).split = false →
    (s.core c).part = some pid → (s.core c).status ≠ .stopped → (s.core c).hm = false → (s.core c).hmEnd ≤ n → (s.core c).gsize = 0 →
    (s.core c).pos = 0 → Clean s (c / 2) → (s.core c).phase % 2 = 0 → (s.core c).snaps.find? (fun e => decide (e.2.at_ ≤ n)) = some (seg, snap) →
    Ends (.signatureMismatch c a n) s fun t => SameBytes s t ∧ (t.core c).status = .running ∧ (t.core c).hm = false ∧
      (t.core c).pc = snap.pc ∧ (t.core c).due = s.now + 24 ∧ (t.core c).sigcnt = ((s.core c).sigcnt + 1) % 2 ^ 32 ∧
      (t.core c).mismatches = (s.core c).mismatches + 1 ∧
      (t.core c).regs = { snap.regs with flights := snap.regs.flights.map fun f => { f with land := f.land - snap.at_ + (s.now + 24) } } ∧
      (∀ e ∈ (t.core c).snaps, e.1 < seg) ∧ (∀ e ∈ (t.core c).overlay, e.2.2 < seg) ∧ (∀ e ∈ (t.core c).held, e.seg < seg) ∧
      Scheduled t (s.now + 24) rankIssue (.bundleIssue c (t.core c).gen none) ∧
      ((s.core c).mismatches = 0 → (t.core c).forced = (s.core c).forced) ∧
      (0 < (s.core c).mismatches → (t.tile (c / 2)).pairTest = true ∧
        (t.core c).forced = some { cause := 0x1C, t0 := ((s.core c).sigcnt + 1) % 2 ^ 32, t1 := a.toNat, t2 := snap.pc.toNat, imp := false })) ∧
  (∀ (s : State) (c n pid d : Nat) (a : CodeAddr), Whole s → s.now = n + 3 → (s.core c).split = false → (s.core c).part = some pid →
    (s.core c).status ≠ .stopped → (s.core c).hm = false → (s.core c).hmEnd ≤ n → (s.core c).phase % 2 = 1 →
    (s.part pid).rerun = none → d = (if (s.part pid).hdr.gcount = 0 then 1024 else 8192) →
    Ends (.signatureMismatch c a n) s fun t => SameBytes s t ∧ (t.part pid).rerun = some s.now ∧
      (t.core c).sigcnt = ((s.core c).sigcnt + 1) % 2 ^ 32 ∧ (t.core c).regs = (s.core c).regs ∧ (t.phaser pid 0).release = none ∧
      Scheduled t (s.now + 16) rankRelease (.rerunRestart pid) ∧ Scheduled t (s.now + 64) rankRelease (.rerunRestart pid) ∧
      Scheduled t (s.now + d) rankRelease (.rerunRestart pid) ∧
      ∀ e ∈ t.agenda, ∀ k o, e.ev ≠ .lockRelease pid k o) ∧
  (∀ (s : State) (pid m d : Nat), Whole s → d = (if (s.part pid).hdr.gcount = 0 then 1024 else 8192) →
    ((s.part pid).rerun = none → Runs (.rerunRestart pid) s s) ∧
    ((s.part pid).rerun = some m →
      (s.now = m + 16 → Ends (.rerunRestart pid) s fun t => SameBytes s t ∧ ∀ c ∈ (s.part pid).cores,
        (t.core c).gen ≠ (s.core c).gen ∧ (t.core c).waits = [] ∧ (t.core c).regs = (s.core c).regs) ∧
      (s.now = m + 64 → Ends (.rerunRestart pid) s fun t => SameBytes s t ∧ t.cores = s.cores ∧
        ∀ e ∈ t.agenda, ∀ f : Flit, e.ev = .flitWrite f ∨ e.ev = .flitLinkEntry f → f.src ∉ (s.part pid).tiles ∧ f.dest ∉ (s.part pid).tiles) ∧
      (s.now = m + d → (∀ c, ((s.phaser pid 0).member c).mode ≠ none → Clean s (c / 2)) → Ends (.rerunRestart pid) s fun t => SameBytes s t ∧ (t.part pid).rerun = none ∧
        (t.phaser pid 0).arrivals = [] ∧ (∀ n ∈ (s.part pid).tiles, (t.tile n).chans = [] ∧ (t.tile n).outs = []) ∧
        ∀ c, ((s.phaser pid 0).member c).mode ≠ none → ∀ x, (s.core c).relSnap = some x → (t.core c).pc = x.pc ∧ (t.core c).status = .running ∧
          (t.core c).hm = false ∧ (t.core c).due = s.now + (s.core c).pos ∧ (t.core c).relAt = s.now + (s.core c).pos ∧
          (t.core c).regs = { x.regs with flights := (t.core c).regs.flights } ∧
          ((s.core c).gsize = 0 ∨ (s.core c).pos = 0 →
            Scheduled t (s.now + (s.core c).pos) rankIssue (.bundleIssue c (t.core c).gen none))))) ∧
  (∀ (s : State) (pid n : Nat), Whole s → n = (s.part pid).hdr.lading →
    (n = 0 → Runs (.roundCopy pid) s s) ∧
    (0 < n → Ends (.roundCopy pid) s fun t => ∀ u ∈ (s.part pid).tiles, ∀ i, i < n →
      Memory.read (t.tile u).store ((s.core (2 * u)).mirror + i) = s.storeByte u ((s.core (2 * u)).lading + i) ∧
      ((∀ v ∈ (s.part pid).tiles, (s.part pid).buddy v = (s.part pid).buddy u → v = u) →
        Memory.read (t.tile ((s.part pid).buddy u)).store ((s.core (2 * (s.part pid).buddy u)).mirror + n + i) =
          s.storeByte u ((s.core (2 * u)).lading + i)))) ∧
  ∀ (s : State) (pid : Nat), Whole s →
    ((s.part pid).status = .none ∨ (s.part pid).ending = true → Runs (.roundRestore pid none) s s) ∧
    (∀ lost, (s.part pid).status = .running → (s.part pid).ending = false → s.workDone pid = false → Ends (.roundRestore pid lost) s fun t =>
      SameBytes s t ∧ (∀ c ∈ (s.part pid).cores, (t.core c).status = .stopped ∧ (t.core c).regs = (s.core c).regs) ∧
      Scheduled t (s.now + 1) rankAfter (.roundRestore pid lost)) ∧
    (∀ im ph lost p n, p = s.part pid → n = p.hdr.lading → p.status = .running → p.ending = false → s.image p.image = some im →
      s.workDone pid = true → NoStep s pid →
      p.roundPhase = none ∧ ph = 0 ∨ p.roundPhase = some ph ∧ p.hdr.resume ≠ 0xFFFFFFFF ∧
        (n ≠ 0 → ∀ u ∈ p.tiles, Clean s u ∧ (¬ LostIn lost u ∨ ¬ LostIn lost (p.buddy u))) →
      Ends (.roundRestore pid lost) s fun t => (t.part pid).status = .running ∧
        (∀ c ∈ p.cores, (t.core c).part = some pid ∧ (t.core c).phase = ph ∧ (t.core c).hm = false ∧
          (t.core c).pc = coreEntry (if p.roundPhase = none then p.hdr.start else p.hdr.resume) (c % 2) ∧
          Scheduled t ((t.part pid).t0 + (t.core c).pos) rankRelease (.startEntry c)) ∧
        (p.roundPhase = some ph → p.tiles.Nodup → ∀ u ∈ p.tiles, Apart (t.core (2 * u)) n → ∀ i, i < n →
          (¬ LostIn lost u → Memory.read (t.tile u).store ((t.core (2 * u)).lading + i) =
            Memory.read (s.tile u).store ((s.core (2 * u)).mirror + i)) ∧
          (LostIn lost u → Memory.read (t.tile u).store ((t.core (2 * u)).lading + i) =
            Memory.read (s.tile (p.buddy u)).store ((s.core (2 * p.buddy u)).mirror + n + i))))

/-- R378-R386, R388, R391. The steps of a repair complete: a sheaf's tiles hold for 70,912 cycles and a zone's for 1,130,496 once they are
idle, and the map changes after; a zone that is retired moves the rows between it and the spare, one that is lost loses its memory and
stops its partitions, and a second loss in its column loses the module. A field that the module does not have is no unit of it.
The corners of chapter 19 are the model's reading (log entry 32). -/
def Obligations.Repair : Prop :=
  (∀ (s : State) (f r k : Nat) (x : Shift), Whole s → shiftOf s f r = some x →
    (x.step ≠ k ∨ x.copying = true ∧ (x.owner = none ∨ ∃ pid, x.owner = some pid ∧ (s.part pid).status ≠ .none) →
      Runs (.sheafShiftStep f r k) s s) ∧
    (∀ pid, x.step = k → x.copying = true → x.owner = some pid → (s.part pid).status = .none → x.second = false → k ≤ 8 →
      (∀ n ∈ s.stepTiles f r x, (s.tile n).move = .moved) → Ends (.sheafShiftStep f r k) s fun t => StepEnds s t f r k x) ∧
    (∀ pid, x.step = k → x.copying = false → x.owner = some pid → (s.part pid).status ≠ .none →
      (x.begun = false → Runs (.sheafShiftStep f r k) s s) ∧
      (x.begun = true → ¬ StepReady s f r x → Ends (.sheafShiftStep f r k) s fun t =>
        OnlyAgenda s t ∧ Scheduled t (s.now + 1) rankRelease (.sheafShiftStep f r k))) ∧
    (∀ pid, x.step = k → x.copying = false → x.begun = true → x.owner = some pid → (s.part pid).status ≠ .none → StepReady s f r x →
      (s.stepTiles f r x).Nodup → Ends (.sheafShiftStep f r k) s fun t => SameBytes s t ∧ t.cores = s.cores ∧
        shiftOf t f r = some { x with copying := true } ∧ Scheduled t (s.now + 70912) rankRelease (.shiftCopyEnd f r k) ∧
        ∀ n ∈ s.stepTiles f r x, (t.tile n).move = .holding ∧ (t.tile n).moveEnd = s.now + 70912) ∧
    (x.step ≠ k ∨ x.copying = false → Runs (.shiftCopyEnd f r k) s s) ∧
    (∀ pid, x.step = k → x.copying = true → x.owner = some pid → (s.part pid).status ≠ .none → Ends (.shiftCopyEnd f r k) s fun t =>
      SameBytes s t ∧ t.cores = s.cores ∧ shiftOf t f r = some x ∧ ∀ n ∈ s.stepTiles f r x, (t.tile n).move = .moved) ∧
    (x.step = k → x.copying = true → x.owner = none → x.second = false → x.step ≤ 8 → Ends (.shiftCopyEnd f r k) s fun t =>
      StepEnds s t f r k x)) ∧
  (∀ (s : State) (fcol frow : Nat), 8 ≤ fcol ∨ 6 ≤ frow → ∀ i ∈ [Instr.zoneLoss fcol frow, .plannedZoneRetirement fcol frow,
    .periodDeviationAlarm fcol frow, .dutyCycleAlarm fcol frow, .regulatorAlarm fcol frow, .junctionTemperatureAlarm fcol frow],
    exec i s = .fault .noSuchUnit) ∧
  (∀ (s : State) (fcol frow sp : Nat), Whole s → fcol < 8 → frow < 6 → sp = s.spare fcol → sp < 6 →
    (∀ z, zoneOf s fcol = some z → z.failed = frow →
      (∀ i ∈ [Instr.plannedZoneRetirement fcol frow, .periodDeviationAlarm fcol frow, .dutyCycleAlarm fcol frow], Runs i s s) ∧
      ∀ i ∈ [Instr.zoneLoss fcol frow, .regulatorAlarm fcol frow, .junctionTemperatureAlarm fcol frow],
        (z.lost = true → Runs i s s) ∧ (z.lost = false → frow ≠ sp → Ends i s fun t => t.lost = s.lost ∧
          ∀ n ∈ zoneTiles fcol (if frow < sp then frow else frow - 1), (∀ b, Memory.read (t.tile n).store b = 0 ∧
            Memory.read (t.tile n).om b = 0 ∧ Memory.read (t.tile n).acc0 b = 0 ∧ Memory.read (t.tile n).acc1 b = 0) ∧
            ∀ pid, s.owner n = some pid → ∀ c ∈ (s.part pid).cores, (t.core c).status = .stopped)) ∧
    ((∀ z, zoneOf s fcol = some z → z.failed ≠ frow) →
    (∀ i ∈ [Instr.plannedZoneRetirement fcol frow, .periodDeviationAlarm fcol frow, .dutyCycleAlarm fcol frow],
      (frow = sp → Ends i s fun t => t = { s with free := t.free, agenda := t.agenda, order := t.order } ∧
        ∃ fail, Scheduled t (s.now + 2400000) rankAfter (.selftestComplete 16 3 (fcol * 2 ^ 12 + frow * 2 ^ 9) fail)) ∧
      (frow ≠ sp → 6 * fcol + sp ∉ s.deadFields → zoneOf s fcol = none → Ends i s fun t => SameBytes s t ∧ t.cores = s.cores ∧
        t.lost = s.lost ∧ ∃ z, zoneOf t fcol = some z ∧ z.failed = frow ∧ z.lost = false ∧ z.rows = movingRows sp frow)) ∧
    (∀ i ∈ [Instr.zoneLoss fcol frow, .regulatorAlarm fcol frow, .junctionTemperatureAlarm fcol frow],
      (frow = sp → Runs i s { s with deadFields := (6 * fcol + frow) :: s.deadFields }) ∧
      (frow ≠ sp → 6 * fcol + sp ∉ s.deadFields → zoneOf s fcol = none → Ends i s fun t => t.lost = s.lost ∧
        ∀ n ∈ zoneTiles fcol (if frow < sp then frow else frow - 1), (∀ b, Memory.read (t.tile n).store b = 0 ∧
          Memory.read (t.tile n).om b = 0 ∧ Memory.read (t.tile n).acc0 b = 0 ∧ Memory.read (t.tile n).acc1 b = 0) ∧
          ∀ pid, s.owner n = some pid → ∀ c ∈ (s.part pid).cores, (t.core c).status = .stopped)) ∧
    (frow ≠ sp → 6 * fcol + sp ∈ s.deadFields ∨ zoneOf s fcol ≠ none → ∀ i ∈ [Instr.zoneLoss fcol frow, .regulatorAlarm fcol frow,
      .junctionTemperatureAlarm fcol frow, .plannedZoneRetirement fcol frow, .periodDeviationAlarm fcol frow, .dutyCycleAlarm fcol frow],
      Ends i s fun t => t.lost = true ∧ SameBytes s t ∧
        ∀ p ∈ s.parts, ∀ c ∈ p.2.cores, (t.core c).status = .stopped))) ∧
  (∀ s : State, Whole s → Ends .coolantFlowLoss s fun t => t.lost = true ∧ SameBytes s t ∧
    ∀ p ∈ s.parts, ∀ c ∈ p.2.cores, (t.core c).status = .stopped) ∧
  ∀ (s : State) (fcol r : Nat) (z : ZoneMove), Whole s → zoneOf s fcol = some z →
    (z.rows.head? ≠ some r ∨ z.copying = true ∧ (z.pids = [] ∨ (∃ pid ∈ z.pids, (s.part pid).status ≠ .none ∧ pid ∉ z.seen) ∨
      ∃ e ∈ s.agenda, e.ev = .zoneCopyEnd fcol r) → Runs (.zoneMove fcol r) s s) ∧
    (∀ q rest, z.rows = r :: q :: rest → z.copying = true → z.pids ≠ [] → (∀ pid ∈ z.pids, (s.part pid).status ≠ .none → pid ∈ z.seen) →
      (∀ e ∈ s.agenda, e.ev ≠ .zoneCopyEnd fcol r) → Ends (.zoneMove fcol r) s fun t => ZoneSteps s t fcol r q rest) ∧
    (z.rows.head? = some r → z.copying = false → (∀ pid ∈ z.pids, (s.part pid).status = .none) → Ends (.zoneMove fcol r) s fun t =>
      SameBytes s t ∧ t.cores = s.cores ∧ zoneOf t fcol = some { z with pids := [], copying := true } ∧
      Scheduled t (s.now + 1130496) rankAfter (.zoneCopyEnd fcol r)) ∧
    (z.rows.head? = some r → z.copying = false → (∃ pid ∈ z.pids, (s.part pid).status ≠ .none) →
      (∀ pid ∈ z.pids, (s.part pid).status ≠ .none → pid ∈ z.begun) → (∀ n ∈ zoneTiles fcol r, s.tileIdle n = true) →
      Ends (.zoneMove fcol r) s fun t => SameBytes s t ∧ t.cores = s.cores ∧ (∃ y, zoneOf t fcol = some y ∧ y.copying = true) ∧
        Scheduled t (s.now + 1130496) rankRelease (.zoneCopyEnd fcol r) ∧
        ∀ n ∈ zoneTiles fcol r, (s.tile n).move = .waiting → (t.tile n).move = .holding) ∧
    (z.rows.head? ≠ some r ∨ z.copying = false → Runs (.zoneCopyEnd fcol r) s s) ∧
    (z.rows = [r] → z.copying = true → (∀ pid ∈ z.pids, (s.part pid).status = .none) → z.lost = false → z.restore = [] →
      s.fieldRow fcol r = z.failed → Ends (.zoneCopyEnd fcol r) s fun t => SameBytes s t ∧ t.cores = s.cores ∧
      zoneOf t fcol = none ∧ s.spare fcol ≠ z.failed ∧ t.spare fcol = z.failed ∧ t.mapver = (s.mapver + 1) % 2 ^ 32) ∧
    (∀ q rest, z.rows = r :: q :: rest → z.copying = true → (∀ pid ∈ z.pids, (s.part pid).status = .none) →
      Ends (.zoneCopyEnd fcol r) s fun t => ZoneSteps s t fcol r q rest)


/-- Tier 3. R44-R62, R194: decoding the encoding of an instruction gives the instruction, with its guard and every operand at every value
that its slot accepts; decoding the words of a command gives the command. -/
def Obligations.DecodeOfEncode : Prop :=
  (∀ (s : Slot) (i : Instr) (gn : Bool) (gp : BitVec 4), wfIn s i = true → (gp = 0 → gn = false) →
    ∃ w, encode s gn gp i = some w ∧ w < 2 ^ 64 ∧ Reads s w gn gp i) ∧
  ∀ c : Command, commandWf c = true → decodeCommand (encodeCommand c) = some c

/-- Tier 3. Every step keeps the canonical form of the machine's memories, register files and tables: keys rise strictly, and nothing is listed
that an unlisted key reads as. And it keeps the ring bases inside their regions and the loop stacks at six levels or fewer (R29, R30).
The tables and what an unlisted key reads as are the model's (log entry 2). -/
def Obligations.StepKeepsTheCanonicalForm : Prop :=
  (∀ s t : State, Whole s → step s = .next t → Whole t) ∧ ∀ s t : State, Whole s → Ringed s → step s = .next t → Ringed t

/-- R30, R32-R35, R186, R191, R259, R426, R428: what power-on and a launch leave. The machine of reset is in canonical form, every ring in its
region, with no partition, no
core assigned, no lease, no queue enabled, bring-up not begun and no timebase; a program's registers, loop stack and CSRs are those of
R35 and Table 1.7.
What reset holds where the spec gives no value is the model's choice (log entries 1 and 2). -/
def Obligations.ResetAndStart : Prop :=
  Whole State.reset ∧ Ringed State.reset ∧ State.reset.boot = 0 ∧ State.reset.tickOn = false ∧ State.reset.tick = 0 ∧ State.reset.agenda = [] ∧
    State.reset.latch.active = false ∧ State.reset.lease.valid = false ∧ (∀ p, (State.reset.part p).status = .none) ∧
    (∀ c, (State.reset.core c).part = none ∧ (State.reset.core c).status = .idle) ∧
    (∀ q, (State.reset.queue q).en = false ∧ (State.reset.queue q).halt = false) ∧
    (∀ c i, (State.reset.handle c i).state = .free) ∧
    (∀ n, Core.idle.regs.get (.k n) = 0 ∧ Core.idle.regs.get (.a n) = 0 ∧ Core.idle.regs.get (.x n) = 0 ∧
      Core.idle.regs.get (.v n) = 0 ∧ Core.idle.regs.get (.w n) = 0 ∧ Core.idle.regs.get (.p n) = if n = 0 then 1 else 0) ∧
    Core.idle.regs.loops = [] ∧ Core.idle.regs.flights = [] ∧ Core.idle.regs.spills = [] ∧ Core.idle.regs.exts = [] ∧
    Core.idle.regs.xfer = none ∧
    (∀ n ∈ [0x020, 0x021, 0x022, 0x023, 0x030, 0x031, 0x032, 0x033, 0x040, 0x041, 0x050, 0x051, 0x052, 0x053, 0x054, 0x055],
      State.reset.csrRead 0 n = 0) ∧ State.reset.csrRead 0 0x024 = 0x603 ∧ State.reset.csrRead 0 0x042 = 64

/-- R21, R24, R44, R192. A step runs what is due: the next slot word of the bundle that is issuing, as the instruction it decodes to; the
bundle's end after its last slot; else the command that the processor serves; else the next step of the agenda at its cycle; and with
nothing due the cycle ends. A command word that cannot be read, is not listed or is privileged halts its queue.
The agenda and the order of a queue's errors are the model's (log entries 34 and 40). -/
def Obligations.StepRunsWhatIsDue : Prop :=
  (∀ (s : State) (sl : Slot) (w : Nat) (rest : List (Slot × Nat)) (gn : Bool) (gp : BitVec 4) (i : Instr),
    s.latch.active = true → s.latch.todo = (sl, w) :: rest → Reads sl w gn gp i →
    step s = exec i { s with latch := { s.latch with slot := sl, word := w, todo := rest } }) ∧
  (∀ s : State, s.latch.active = true → s.latch.todo = [] → step s = .next s.finishBundle) ∧
  (∀ (s : State) (e : Ev) (r : List Ev), s.latch.active = false → ServesNothing s → s.agenda = e :: r →
    step s = exec e.ev.instr { s with now := max s.now e.at_, agenda := r }) ∧
  (∀ s : State, s.latch.active = false → s.nextQueue = none → s.agenda = [] → step s = .next { s with now := s.now + 1 }) ∧
  (∀ (s : State) (q : Nat), s.latch.active = false → s.nextQueue = some q → s.agendaFirst = false →
    (∀ c t, ({ s with now := max s.now s.hartAt } : State).serve q = .run c t → step s = exec (c.instr q) t) ∧
    ∀ t, ({ s with now := max s.now s.hartAt } : State).serve q = .done t → step s = .next t) ∧
  ∀ (s : State) (q : Nat), Whole s → q < 16 →
    (s.ringWord q (s.queue q).head = none → ∃ t, s.serve q = .done t ∧ (t.queue q).halt = true ∧ (t.queue q).err = 8) ∧
    (∀ w n ws c, s.ringWord q (s.queue q).head = some w → commandWords (w / 2 ^ 56 % 2 ^ 8) = some n →
      s.ringWords q (s.queue q).head n = some ws → decodeCommand ws = some c → (s.queue q).seek = 0 → (s.queue q).skip = 0 →
      (commandPriv (w / 2 ^ 56 % 2 ^ 8) = true → (s.queue q).priv = false →
        ∃ t, s.serve q = .done t ∧ (t.queue q).halt = true ∧ (t.queue q).err = 4) ∧
      (commandPriv (w / 2 ^ 56 % 2 ^ 8) = false ∨ (s.queue q).priv = true → ∃ t, s.serve q = .run c t ∧ t.queue q = s.queue q)) ∧
    ∀ w, s.ringWord q (s.queue q).head = some w → commandWords (w / 2 ^ 56 % 2 ^ 8) = none →
      ∃ t, s.serve q = .done t ∧ (t.queue q).halt = true ∧ (t.queue q).err = 1

/-- R45, R48-R62, Tables 2.2 to 2.12, Table 9.2: words put together bit by bit from the spec's formats are read as the instructions they
stand for, in every slot and from the command ring, and the reserved guard, an unlisted opcode and a nonzero zero field are refused.
Bits are numbered as log entry 6 says. -/
def Obligations.WordsOfTheFormats : Prop :=
  Reads .k 0x0128443000000000 false 5 (.add 1 2 3) ∧
  Reads .k 0x3191900C2468AC00 true 2 (.cmpiLe 3 4 0x123456) ∧
  Reads .k 0x54018000003402AB false 0 (.lockAnd 6 true true 0x2AB) ∧
  Reads .k 0x64000113579BDE00 false 0 (.trap 0x89ABCDEF) ∧
  Reads .m 0x1401D027FFFFF200 false 0 (.ldw { base := 7, file := .m, reg := 9, off := 0xFFFFFC, post := true }) ∧
  Reads .v 0x017CFE0000200610 false 15 (.vadd 639 0 1 .n8 true) ∧
  Reads .w 0x23000A0300E04160 false 0 (.vfma 5 6 7 8 .bf16 .ru) ∧
  Reads .v 0x3800020100060090 false 0 (.vcvt 1 2 .e4m3 .f32 .rs true) ∧
  Reads .x 0x10040B80000ABCDE false 0 (.send 0x81 7 0xABCDE) ∧
  Reads .x 0x310200CF70000000 false 0 (.sbind 2 .w 635 true) ∧
  Reads .x 0x5306247CC0000005 false 0
    (.qatomCas { q := 3, xd := 1, xa := 2, xb := 3, tp := true, tw := true, tid := 2, bound := 5 }) ∧
  Reads .x 0xE005024030000000 false 0 (.xcopy .p 9 3) ∧
  Reads .v 0xF007FFFFFFFFFFFF false 0 (.ext 0x7FFFFFFFFFFFF) ∧
  decodeSlot .k 0x0180443000000000 = .error .reservedGuard ∧
  (∃ e, decodeSlot .k 0x0000443000000000 = .error e) ∧ (∃ e, decodeSlot .k 0x0128443000000001 = .error e) ∧
  (∃ e, decodeSlot .v 0x0105000000200000 = .error e) ∧
  decodeCommand [0x0800000012345678] = some (.loopc 0x12345678) ∧
  decodeCommand [0x2000123456600000, 0x8B00000000000005, 3] = some (.mapPages 0x123456600000 0x8B00000000000005 3) ∧
  decodeCommand [0x0801000012345678] = none ∧
  decodeHeader 0xFFF9C000ABCDEF00 = { wait := 1023, sv := 0x1C, le := true, rt := true, sg := true, cstamp := 0x00ABCD, reserved := true }
end

