-- ==== Sys2Proof/Laws/Table.lean ====
section
/-! SUPPORT. The laws of tables and byte memories: what a read after a write gives, and that every operation keeps the canonical
form. -/

namespace Sys2Proof.Machine

variable {α : Type}

/-! ## Rising keys -/

theorem Table.rising_cons (i : Nat) (v : α) (t : Table α) :
    Table.rising ((i, v) :: t) = true ↔ (∀ e ∈ t, i < e.1) ∧ Table.rising t = true := by
  induction t generalizing i v with
  | nil => simp [Table.rising]
  | cons e r ih =>
    obtain ⟨j, u⟩ := e
    simp only [Table.rising, Bool.and_eq_true, decide_eq_true_eq, List.mem_cons, forall_eq_or_imp]
    constructor
    · rintro ⟨h, hr⟩
      have := (ih j u).1 hr
      exact ⟨⟨h, fun e he => Nat.lt_trans h (this.1 e he)⟩, hr⟩
    · rintro ⟨⟨h, _⟩, hr⟩
      exact ⟨h, hr⟩

theorem Table.rising_filter (p : Nat × α → Bool) (t : Table α) (h : Table.rising t = true) : Table.rising (t.filter p) = true := by
  induction t with
  | nil => simpa using h
  | cons e r ih =>
    obtain ⟨i, v⟩ := e
    obtain ⟨h1, h2⟩ := (Table.rising_cons i v r).1 h
    by_cases hp : p (i, v) = true
    · rw [List.filter_cons_of_pos hp]
      exact (Table.rising_cons i v _).2 ⟨fun e he => h1 e (List.mem_filter.1 he).1, ih h2⟩
    · rw [List.filter_cons_of_neg hp]
      exact ih h2

/-! ## Members of a written table -/

theorem Table.mem_put {t : Table α} {k : Nat} {v : α} {e : Nat × α} (h : e ∈ Table.put t k v) : e ∈ t ∨ e = (k, v) := by
  induction t with
  | nil => simp [Table.put] at h; exact .inr h
  | cons x r ih =>
    obtain ⟨j, u⟩ := x
    unfold Table.put at h
    split at h
    · rcases List.mem_cons.1 h with h | h
      · exact .inr h
      · exact .inl h
    · split at h
      · rcases List.mem_cons.1 h with h | h
        · exact .inr h
        · exact .inl (List.mem_cons_of_mem _ h)
      · rcases List.mem_cons.1 h with h | h
        · exact .inl (h ▸ List.mem_cons_self)
        · rcases ih h with h | h
          · exact .inl (List.mem_cons_of_mem _ h)
          · exact .inr h

theorem Table.mem_drop {t : Table α} {k : Nat} {e : Nat × α} (h : e ∈ Table.drop t k) : e ∈ t := by
  induction t with
  | nil => simp [Table.drop] at h
  | cons x r ih =>
    obtain ⟨j, u⟩ := x
    unfold Table.drop at h
    split at h
    · exact h
    · split at h
      · exact List.mem_cons_of_mem _ h
      · rcases List.mem_cons.1 h with h | h
        · exact h ▸ List.mem_cons_self
        · exact List.mem_cons_of_mem _ (ih h)

theorem Table.mem_set [DecidableEq α] {d : α} {t : Table α} {k : Nat} {v : α} {e : Nat × α} (h : e ∈ Table.set d t k v) :
    e ∈ t ∨ e = (k, v) := by
  unfold Table.set at h
  split at h
  · exact .inl (Table.mem_drop h)
  · exact Table.mem_put h

theorem Table.get_mem (d : α) (t : Table α) (k : Nat) : Table.get d t k = d ∨ (k, Table.get d t k) ∈ t := by
  induction t with
  | nil => exact .inl rfl
  | cons x r ih =>
    obtain ⟨j, u⟩ := x
    unfold Table.get
    split
    · rename_i h; subst h; exact .inr List.mem_cons_self
    · split
      · exact .inl rfl
      · rcases ih with h | h
        · exact .inl h
        · exact .inr (List.mem_cons_of_mem _ h)

/-! ## Reading -/

theorem Table.get_below (d : α) (t : Table α) (k : Nat) (h : ∀ e ∈ t, k < e.1) : Table.get d t k = d := by
  cases t with
  | nil => rfl
  | cons x r =>
    obtain ⟨j, u⟩ := x
    have : k < j := h _ List.mem_cons_self
    simp [Table.get, this, Nat.ne_of_gt this]

theorem Table.get_put_same (d : α) (t : Table α) (k : Nat) (v : α) : Table.get d (Table.put t k v) k = v := by
  induction t with
  | nil => simp [Table.put, Table.get]
  | cons x r ih =>
    obtain ⟨j, u⟩ := x
    unfold Table.put
    split
    · simp [Table.get]
    · split
      · simp [Table.get]
      · rename_i h1 h2
        simp [Table.get, h1, h2, ih]

theorem Table.get_put_ne (d : α) (t : Table α) (k j : Nat) (v : α) (hw : Table.rising t = true) (hk : j ≠ k) :
    Table.get d (Table.put t k v) j = Table.get d t j := by
  induction t with
  | nil => simp only [Table.put, Table.get]; split <;> simp_all
  | cons x r ih =>
    obtain ⟨i, u⟩ := x
    obtain ⟨h1, h2⟩ := (Table.rising_cons i u r).1 hw
    unfold Table.put
    split
    · rename_i hki
      simp only [Table.get]
      rw [if_neg (Ne.symm hk)]
      split
      · rename_i hjk
        rw [if_neg (by omega), if_pos (by omega)]
      · rfl
    · split
      · rename_i hik
        subst hik
        simp only [Table.get, if_neg (Ne.symm hk)]
      · simp only [Table.get, ih h2]

theorem Table.get_drop_same (d : α) (t : Table α) (k : Nat) (hw : Table.rising t = true) : Table.get d (Table.drop t k) k = d := by
  induction t with
  | nil => rfl
  | cons x r ih =>
    obtain ⟨i, u⟩ := x
    obtain ⟨h1, h2⟩ := (Table.rising_cons i u r).1 hw
    unfold Table.drop
    split
    · rename_i h
      simp [Table.get, h, Nat.ne_of_gt h]
    · split
      · rename_i h; subst h; exact Table.get_below d r i h1
      · rename_i ha hb
        simp only [Table.get, if_neg hb, if_neg ha, ih h2]

theorem Table.get_drop_ne (d : α) (t : Table α) (k j : Nat) (hw : Table.rising t = true) (hk : j ≠ k) :
    Table.get d (Table.drop t k) j = Table.get d t j := by
  induction t with
  | nil => rfl
  | cons x r ih =>
    obtain ⟨i, u⟩ := x
    obtain ⟨h1, h2⟩ := (Table.rising_cons i u r).1 hw
    unfold Table.drop
    split
    · rfl
    · split
      · rename_i h; subst h
        simp only [Table.get, if_neg (Ne.symm hk)]
        split
        · rename_i h; exact Table.get_below d r j fun e he => Nat.lt_trans h (h1 e he)
        · rfl
      · simp only [Table.get, ih h2]

theorem Table.get_set_same [DecidableEq α] (d : α) (t : Table α) (k : Nat) (v : α) (hw : Table.rising t = true) :
    Table.get d (Table.set d t k v) k = v := by
  unfold Table.set
  split
  · rename_i h; rw [h]; exact Table.get_drop_same d t k hw
  · exact Table.get_put_same d t k v

theorem Table.get_set_ne [DecidableEq α] (d : α) (t : Table α) (k j : Nat) (v : α) (hw : Table.rising t = true) (hk : j ≠ k) :
    Table.get d (Table.set d t k v) j = Table.get d t j := by
  unfold Table.set
  split
  · exact Table.get_drop_ne d t k j hw hk
  · exact Table.get_put_ne d t k j v hw hk

/-! ## The canonical form is kept -/

theorem Table.wf_iff [DecidableEq α] (d : α) (t : Table α) :
    Table.wf d t = true ↔ Table.rising t = true ∧ ∀ e ∈ t, e.2 ≠ d := by
  simp [Table.wf]

theorem Table.rising_put (t : Table α) (k : Nat) (v : α) (hw : Table.rising t = true) : Table.rising (Table.put t k v) = true := by
  induction t with
  | nil => rfl
  | cons x r ih =>
    obtain ⟨i, u⟩ := x
    obtain ⟨h1, h2⟩ := (Table.rising_cons i u r).1 hw
    unfold Table.put
    split
    · rename_i h
      refine (Table.rising_cons _ _ _).2 ⟨fun e he => ?_, hw⟩
      rcases List.mem_cons.1 he with he | he
      · rw [he]; exact h
      · exact Nat.lt_trans h (h1 e he)
    · split
      · rename_i h; subst h; exact (Table.rising_cons _ _ _).2 ⟨h1, h2⟩
      · refine (Table.rising_cons _ _ _).2 ⟨fun e he => ?_, ih h2⟩
        rcases Table.mem_put he with he | he
        · exact h1 e he
        · rw [he]; show i < k; omega

theorem Table.rising_drop (t : Table α) (k : Nat) (hw : Table.rising t = true) : Table.rising (Table.drop t k) = true := by
  induction t with
  | nil => rfl
  | cons x r ih =>
    obtain ⟨i, u⟩ := x
    obtain ⟨h1, h2⟩ := (Table.rising_cons i u r).1 hw
    unfold Table.drop
    split
    · exact hw
    · split
      · exact h2
      · exact (Table.rising_cons _ _ _).2 ⟨fun e he => h1 e (Table.mem_drop he), ih h2⟩

/-- Every write keeps a table in canonical form. -/
theorem Table.wf_set [DecidableEq α] (d : α) (t : Table α) (k : Nat) (v : α) (hw : Table.wf d t = true) :
    Table.wf d (Table.set d t k v) = true := by
  obtain ⟨h1, h2⟩ := (Table.wf_iff d t).1 hw
  refine (Table.wf_iff d _).2 ⟨?_, fun e he => ?_⟩
  · unfold Table.set
    split
    · exact Table.rising_drop t k h1
    · exact Table.rising_put t k v h1
  · unfold Table.set at he
    split at he
    · exact h2 e (Table.mem_drop he)
    · rename_i hv
      rcases Table.mem_put he with he | he
      · exact h2 e he
      · rw [he]; exact hv

theorem Table.wf_drop [DecidableEq α] (d : α) (t : Table α) (k : Nat) (hw : Table.wf d t = true) : Table.wf d (Table.drop t k) = true := by
  obtain ⟨h1, h2⟩ := (Table.wf_iff d t).1 hw
  exact (Table.wf_iff d _).2 ⟨Table.rising_drop t k h1, fun e he => h2 e (Table.mem_drop he)⟩

theorem Table.wf_filter [DecidableEq α] (d : α) (t : Table α) (p : Nat × α → Bool) (hw : Table.wf d t = true) :
    Table.wf d (t.filter p) = true := by
  obtain ⟨h1, h2⟩ := (Table.wf_iff d t).1 hw
  exact (Table.wf_iff d _).2 ⟨Table.rising_filter p t h1, fun e he => h2 e (List.mem_filter.1 he).1⟩

/-- Changing every listed value keeps the canonical form. -/
theorem Table.rising_map (t : Table α) (f : Nat → α → α) (hw : Table.rising t = true) :
    Table.rising (t.map fun e => (e.1, f e.1 e.2)) = true := by
  induction t with
  | nil => rfl
  | cons x r ih =>
    obtain ⟨i, v⟩ := x
    obtain ⟨h1, h2⟩ := (Table.rising_cons i v r).1 hw
    refine (Table.rising_cons _ _ _).2 ⟨fun e he => ?_, ih h2⟩
    obtain ⟨y, hy, rfl⟩ := List.mem_map.1 he
    exact h1 y hy

theorem Table.wf_mapped [DecidableEq α] (d : α) (f : Nat → α → α) (t : Table α) (hw : Table.wf d t = true) :
    Table.wf d (Table.mapped d f t) = true := by
  obtain ⟨h1, _⟩ := (Table.wf_iff d t).1 hw
  refine (Table.wf_iff d _).2 ⟨Table.rising_filter _ _ (Table.rising_map t f h1), fun e he => ?_⟩
  simpa using (List.mem_filter.1 he).2

/-- Two tables in canonical form that read alike are equal. -/
theorem Table.ext_wf [DecidableEq α] (d : α) (t u : Table α) (ht : Table.wf d t = true) (hu : Table.wf d u = true)
    (h : ∀ k, Table.get d t k = Table.get d u k) : t = u := by
  obtain ⟨t1, t2⟩ := (Table.wf_iff d t).1 ht
  obtain ⟨u1, u2⟩ := (Table.wf_iff d u).1 hu
  clear ht hu
  induction t generalizing u with
  | nil =>
    cases u with
    | nil => rfl
    | cons y s =>
      exact absurd (by simpa [Table.get] using (h y.1).symm) (u2 y List.mem_cons_self)
  | cons x r ih =>
    cases u with
    | nil => exact absurd (by simpa [Table.get] using h x.1) (t2 x List.mem_cons_self)
    | cons y s =>
      obtain ⟨i, a⟩ := x
      obtain ⟨j, b⟩ := y
      obtain ⟨r1, r2⟩ := (Table.rising_cons i a r).1 t1
      obtain ⟨s1, s2⟩ := (Table.rising_cons j b s).1 u1
      have ha := t2 (i, a) List.mem_cons_self
      have hb := u2 (j, b) List.mem_cons_self
      have hij : i = j := by
        rcases Nat.lt_trichotomy i j with hl | he | hl
        · have := h i
          rw [Table.get_below d ((j, b) :: s) i (fun e he => by
            rcases List.mem_cons.1 he with he | he
            · rw [he]; exact hl
            · exact Nat.lt_trans hl (s1 e he))] at this
          exact absurd (by simpa [Table.get] using this) ha
        · exact he
        · have := h j
          rw [Table.get_below d ((i, a) :: r) j (fun e he => by
            rcases List.mem_cons.1 he with he | he
            · rw [he]; exact hl
            · exact Nat.lt_trans hl (r1 e he))] at this
          exact absurd (by simpa [Table.get] using this.symm) hb
      subst hij
      have hab : a = b := by simpa [Table.get] using h i
      subst hab
      congr 1
      refine ih s (fun k => ?_) r2 (fun e he => t2 e (List.mem_cons_of_mem _ he)) s2 (fun e he => u2 e (List.mem_cons_of_mem _ he))
      by_cases hk : i < k
      · have := h k
        simpa [Table.get, Nat.ne_of_lt hk, Nat.not_lt.2 (Nat.le_of_lt hk)] using this
      · rw [Table.get_below d r k fun e he => Nat.lt_of_le_of_lt (Nat.le_of_not_lt hk) (r1 e he),
          Table.get_below d s k fun e he => Nat.lt_of_le_of_lt (Nat.le_of_not_lt hk) (s1 e he)]

/-- Writing what a key reads as changes nothing. -/
theorem Table.set_get [DecidableEq α] (d : α) (t : Table α) (k : Nat) (hw : Table.wf d t = true) :
    Table.set d t k (Table.get d t k) = t := by
  have hr := ((Table.wf_iff d t).1 hw).1
  refine Table.ext_wf d _ _ (Table.wf_set d t k _ hw) hw fun j => ?_
  by_cases h : j = k
  · rw [h, Table.get_set_same d t k _ hr]
  · rw [Table.get_set_ne d t k j _ hr h]

/-- Of two writes of one key the second stands. -/
theorem Table.set_set [DecidableEq α] (d : α) (t : Table α) (k : Nat) (a b : α) (hw : Table.wf d t = true) :
    Table.set d (Table.set d t k a) k b = Table.set d t k b := by
  have hw2 := Table.wf_set d t k a hw
  have hr := ((Table.wf_iff d t).1 hw).1
  have hr2 := ((Table.wf_iff d _).1 hw2).1
  refine Table.ext_wf d _ _ (Table.wf_set d _ k b hw2) (Table.wf_set d t k b hw) fun j => ?_
  by_cases h : j = k
  · rw [h, Table.get_set_same d _ k b hr2, Table.get_set_same d t k b hr]
  · rw [Table.get_set_ne d _ k j b hr2 h, Table.get_set_ne d t k j a hr h, Table.get_set_ne d t k j b hr h]

/-! ## Byte memories -/

theorem Memory.read_write_same (m : Memory) (a : Nat) (b : Byte) (hw : Memory.wf m = true) : Memory.read (Memory.write m a b) a = b :=
  Table.get_set_same 0 m a b ((Table.wf_iff _ _).1 hw).1

theorem Memory.read_write_ne (m : Memory) (a c : Nat) (b : Byte) (hw : Memory.wf m = true) (h : c ≠ a) :
    Memory.read (Memory.write m a b) c = Memory.read m c :=
  Table.get_set_ne 0 m a c b ((Table.wf_iff _ _).1 hw).1 h

theorem Memory.wf_write (m : Memory) (a : Nat) (b : Byte) (hw : Memory.wf m = true) : Memory.wf (Memory.write m a b) = true :=
  Table.wf_set 0 m a b hw

theorem Memory.wf_writeAll (m : Memory) (bs : List (Nat × Byte)) (hw : Memory.wf m = true) : Memory.wf (Memory.writeAll m bs) = true := by
  induction bs generalizing m with
  | nil => exact hw
  | cons e r ih => exact ih _ (Memory.wf_write m e.1 e.2 hw)

theorem Memory.wf_put (m : Memory) (a v n : Nat) (hw : Memory.wf m = true) : Memory.wf (Memory.put m a v n) = true :=
  Memory.wf_writeAll m _ hw

theorem Memory.wf_zero (m : Memory) (a n : Nat) (hw : Memory.wf m = true) : Memory.wf (Memory.zero m a n) = true :=
  Table.wf_filter 0 m _ hw

theorem Memory.wf_part (m : Memory) (a n : Nat) (hw : Memory.wf m = true) : Memory.wf (Memory.part m a n) = true :=
  Table.wf_filter 0 m _ hw

theorem Memory.wf_nil : Memory.wf [] = true := rfl

/-- A list of writes leaves every address that it does not name. -/
theorem Memory.read_writeAll_ne (m : Memory) (bs : List (Nat × Byte)) (a : Nat) (hw : Memory.wf m = true)
    (h : ∀ e ∈ bs, e.1 ≠ a) : Memory.read (Memory.writeAll m bs) a = Memory.read m a := by
  induction bs generalizing m with
  | nil => rfl
  | cons e r ih =>
    obtain ⟨j, b⟩ := e
    rw [Memory.writeAll, ih _ (Memory.wf_write m j b hw) (fun e he => h e (List.mem_cons_of_mem _ he)),
      Memory.read_write_ne m j a b hw (Ne.symm (h _ List.mem_cons_self))]

/-- Bytes written from `a` on read back in their order, and every other byte is as before. -/
theorem Memory.read_writeAll (m : Memory) (a c : Nat) (bs : List Byte) (hw : Memory.wf m = true) :
    Memory.read (Memory.writeAll m (atAddr a bs)) c =
      if a ≤ c ∧ c < a + bs.length then bs.getD (c - a) 0 else Memory.read m c := by
  induction bs generalizing m a with
  | nil => simp only [atAddr, Memory.writeAll, List.length_nil]; rw [if_neg (by omega)]
  | cons b r ih =>
    simp only [atAddr, Memory.writeAll, List.length_cons]
    rw [ih _ (a + 1) (Memory.wf_write m a b hw)]
    by_cases h : c = a
    · rw [if_neg (by omega), if_pos (by omega), h, Memory.read_write_same m a b hw, Nat.sub_self]; rfl
    · rw [Memory.read_write_ne m a c b hw h]
      by_cases h2 : a + 1 ≤ c ∧ c < a + 1 + r.length
      · rw [if_pos h2, if_pos (by omega), show c - a = c - (a + 1) + 1 by omega, List.getD_cons_succ]
      · rw [if_neg h2, if_neg (by omega)]

/-- The low bytes of a number, one by one. -/
theorem toBytes_getD (v n i : Nat) (h : i < n) : (toBytes v n).getD i 0 = BitVec.ofNat 8 (v / 2 ^ (8 * i)) := by
  induction n generalizing v i with
  | zero => omega
  | succ n ih =>
    cases i with
    | zero => simp [toBytes]
    | succ i =>
      rw [toBytes, List.getD_cons_succ, ih _ _ (by omega), Nat.div_div_eq_div_mul]
      rw [show 8 * (i + 1) = 8 + 8 * i by omega, Nat.pow_add]

@[simp] theorem toBytes_length (v n : Nat) : (toBytes v n).length = n := by
  induction n generalizing v with
  | zero => rfl
  | succ n ih => simp [toBytes, ih]

/-- A number written in `n` bytes. -/
theorem Memory.read_put (m : Memory) (a v n c : Nat) (hw : Memory.wf m = true) :
    Memory.read (Memory.put m a v n) c =
      if a ≤ c ∧ c < a + n then BitVec.ofNat 8 (v / 2 ^ (8 * (c - a))) else Memory.read m c := by
  rw [Memory.put, Memory.read_writeAll m a c _ hw, toBytes_length]
  split
  · exact toBytes_getD v n _ (by omega)
  · rfl

end Sys2Proof.Machine
end

