-- ==== Sys2Proof/Laws/State.lean ====
section
/-! SUPPORT. What each update of the state does to each field: one lemma per field per update, so that no proof unfolds a record
update. -/

namespace Sys2Proof.Machine

variable (s : State)

/-! ## `setCore` -/

@[simp] theorem State.setCore_now (c : Nat) (x : Core) : (s.setCore c x).now = s.now := rfl
@[simp] theorem State.setCore_tickOn (c : Nat) (x : Core) : (s.setCore c x).tickOn = s.tickOn := rfl
@[simp] theorem State.setCore_tickOff (c : Nat) (x : Core) : (s.setCore c x).tickOff = s.tickOff := rfl
@[simp] theorem State.setCore_latch (c : Nat) (x : Core) : (s.setCore c x).latch = s.latch := rfl
@[simp] theorem State.setCore_agenda (c : Nat) (x : Core) : (s.setCore c x).agenda = s.agenda := rfl
@[simp] theorem State.setCore_order (c : Nat) (x : Core) : (s.setCore c x).order = s.order := rfl
@[simp] theorem State.setCore_free (c : Nat) (x : Core) : (s.setCore c x).free = s.free := rfl
@[simp] theorem State.setCore_hartAt (c : Nat) (x : Core) : (s.setCore c x).hartAt = s.hartAt := rfl
@[simp] theorem State.setCore_cores (c : Nat) (x : Core) : (s.setCore c x).cores = Table.set Core.idle s.cores c x := rfl
@[simp] theorem State.setCore_tiles (c : Nat) (x : Core) : (s.setCore c x).tiles = s.tiles := rfl
@[simp] theorem State.setCore_parts (c : Nat) (x : Core) : (s.setCore c x).parts = s.parts := rfl
@[simp] theorem State.setCore_links (c : Nat) (x : Core) : (s.setCore c x).links = s.links := rfl
@[simp] theorem State.setCore_waiting (c : Nat) (x : Core) : (s.setCore c x).waiting = s.waiting := rfl
@[simp] theorem State.setCore_mreds (c : Nat) (x : Core) : (s.setCore c x).mreds = s.mreds := rfl
@[simp] theorem State.setCore_handles (c : Nat) (x : Core) : (s.setCore c x).handles = s.handles := rfl
@[simp] theorem State.setCore_handleRegs (c : Nat) (x : Core) : (s.setCore c x).handleRegs = s.handleRegs := rfl
@[simp] theorem State.setCore_handleBusy (c : Nat) (x : Core) : (s.setCore c x).handleBusy = s.handleBusy := rfl
@[simp] theorem State.setCore_tlbs (c : Nat) (x : Core) : (s.setCore c x).tlbs = s.tlbs := rfl
@[simp] theorem State.setCore_tierPoison (c : Nat) (x : Core) : (s.setCore c x).tierPoison = s.tierPoison := rfl
@[simp] theorem State.setCore_rowSpares (c : Nat) (x : Core) : (s.setCore c x).rowSpares = s.rowSpares := rfl
@[simp] theorem State.setCore_cardSpares (c : Nat) (x : Core) : (s.setCore c x).cardSpares = s.cardSpares := rfl
@[simp] theorem State.setCore_rowDraw (c : Nat) (x : Core) : (s.setCore c x).rowDraw = s.rowDraw := rfl
@[simp] theorem State.setCore_cardBusy (c : Nat) (x : Core) : (s.setCore c x).cardBusy = s.cardBusy := rfl
@[simp] theorem State.setCore_cardRetries (c : Nat) (x : Core) : (s.setCore c x).cardRetries = s.cardRetries := rfl
@[simp] theorem State.setCore_colls (c : Nat) (x : Core) : (s.setCore c x).colls = s.colls := rfl
@[simp] theorem State.setCore_nextColl (c : Nat) (x : Core) : (s.setCore c x).nextColl = s.nextColl := rfl
@[simp] theorem State.setCore_parity (c : Nat) (x : Core) : (s.setCore c x).parity = s.parity := rfl
@[simp] theorem State.setCore_queues (c : Nat) (x : Core) : (s.setCore c x).queues = s.queues := rfl
@[simp] theorem State.setCore_tokens (c : Nat) (x : Core) : (s.setCore c x).tokens = s.tokens := rfl
@[simp] theorem State.setCore_tier (c : Nat) (x : Core) : (s.setCore c x).tier = s.tier := rfl
@[simp] theorem State.setCore_hostMem (c : Nat) (x : Core) : (s.setCore c x).hostMem = s.hostMem := rfl
@[simp] theorem State.setCore_pages (c : Nat) (x : Core) : (s.setCore c x).pages = s.pages := rfl
@[simp] theorem State.setCore_mapver (c : Nat) (x : Core) : (s.setCore c x).mapver = s.mapver := rfl
@[simp] theorem State.setCore_spareRow (c : Nat) (x : Core) : (s.setCore c x).spareRow = s.spareRow := rfl
@[simp] theorem State.setCore_deadMask (c : Nat) (x : Core) : (s.setCore c x).deadMask = s.deadMask := rfl
@[simp] theorem State.setCore_shifts (c : Nat) (x : Core) : (s.setCore c x).shifts = s.shifts := rfl
@[simp] theorem State.setCore_zones (c : Nat) (x : Core) : (s.setCore c x).zones = s.zones := rfl
@[simp] theorem State.setCore_lateDead (c : Nat) (x : Core) : (s.setCore c x).lateDead = s.lateDead := rfl
@[simp] theorem State.setCore_deadFields (c : Nat) (x : Core) : (s.setCore c x).deadFields = s.deadFields := rfl
@[simp] theorem State.setCore_lost (c : Nat) (x : Core) : (s.setCore c x).lost = s.lost := rfl
@[simp] theorem State.setCore_topver (c : Nat) (x : Core) : (s.setCore c x).topver = s.topver := rfl
@[simp] theorem State.setCore_drift (c : Nat) (x : Core) : (s.setCore c x).drift = s.drift := rfl
@[simp] theorem State.setCore_adj (c : Nat) (x : Core) : (s.setCore c x).adj = s.adj := rfl
@[simp] theorem State.setCore_adjAt (c : Nat) (x : Core) : (s.setCore c x).adjAt = s.adjAt := rfl
@[simp] theorem State.setCore_tadj (c : Nat) (x : Core) : (s.setCore c x).tadj = s.tadj := rfl
@[simp] theorem State.setCore_modid (c : Nat) (x : Core) : (s.setCore c x).modid = s.modid := rfl
@[simp] theorem State.setCore_ports (c : Nat) (x : Core) : (s.setCore c x).ports = s.ports := rfl
@[simp] theorem State.setCore_lostPorts (c : Nat) (x : Core) : (s.setCore c x).lostPorts = s.lostPorts := rfl
@[simp] theorem State.setCore_armed (c : Nat) (x : Core) : (s.setCore c x).armed = s.armed := rfl
@[simp] theorem State.setCore_domain (c : Nat) (x : Core) : (s.setCore c x).domain = s.domain := rfl
@[simp] theorem State.setCore_interval (c : Nat) (x : Core) : (s.setCore c x).interval = s.interval := rfl
@[simp] theorem State.setCore_intervalAt (c : Nat) (x : Core) : (s.setCore c x).intervalAt = s.intervalAt := rfl
@[simp] theorem State.setCore_circuits (c : Nat) (x : Core) : (s.setCore c x).circuits = s.circuits := rfl
@[simp] theorem State.setCore_reports (c : Nat) (x : Core) : (s.setCore c x).reports = s.reports := rfl
@[simp] theorem State.setCore_serving (c : Nat) (x : Core) : (s.setCore c x).serving = s.serving := rfl
@[simp] theorem State.setCore_guard_ (c : Nat) (x : Core) : (s.setCore c x).guard_ = s.guard_ := rfl
@[simp] theorem State.setCore_spares (c : Nat) (x : Core) : (s.setCore c x).spares = s.spares := rfl
@[simp] theorem State.setCore_rebuilds (c : Nat) (x : Core) : (s.setCore c x).rebuilds = s.rebuilds := rfl
@[simp] theorem State.setCore_jobRanks (c : Nat) (x : Core) : (s.setCore c x).jobRanks = s.jobRanks := rfl
@[simp] theorem State.setCore_jobPlanes (c : Nat) (x : Core) : (s.setCore c x).jobPlanes = s.jobPlanes := rfl
@[simp] theorem State.setCore_jobUses (c : Nat) (x : Core) : (s.setCore c x).jobUses = s.jobUses := rfl
@[simp] theorem State.setCore_lostSpares (c : Nat) (x : Core) : (s.setCore c x).lostSpares = s.lostSpares := rfl
@[simp] theorem State.setCore_jobMaps (c : Nat) (x : Core) : (s.setCore c x).jobMaps = s.jobMaps := rfl
@[simp] theorem State.setCore_images (c : Nat) (x : Core) : (s.setCore c x).images = s.images := rfl
@[simp] theorem State.setCore_served (c : Nat) (x : Core) : (s.setCore c x).served = s.served := rfl
@[simp] theorem State.setCore_manifests (c : Nat) (x : Core) : (s.setCore c x).manifests = s.manifests := rfl
@[simp] theorem State.setCore_lease (c : Nat) (x : Core) : (s.setCore c x).lease = s.lease := rfl
@[simp] theorem State.setCore_boot (c : Nat) (x : Core) : (s.setCore c x).boot = s.boot := rfl
@[simp] theorem State.setCore_nohist (c : Nat) (x : Core) : (s.setCore c x).nohist = s.nohist := rfl
@[simp] theorem State.setCore_mgmt (c : Nat) (x : Core) : (s.setCore c x).mgmt = s.mgmt := rfl
@[simp] theorem State.setCore_firmware (c : Nat) (x : Core) : (s.setCore c x).firmware = s.firmware := rfl
@[simp] theorem State.setCore_identity (c : Nat) (x : Core) : (s.setCore c x).identity = s.identity := rfl

/-! ## `setTile` -/

@[simp] theorem State.setTile_now (t : Nat) (x : Tile) : (s.setTile t x).now = s.now := rfl
@[simp] theorem State.setTile_tickOn (t : Nat) (x : Tile) : (s.setTile t x).tickOn = s.tickOn := rfl
@[simp] theorem State.setTile_tickOff (t : Nat) (x : Tile) : (s.setTile t x).tickOff = s.tickOff := rfl
@[simp] theorem State.setTile_latch (t : Nat) (x : Tile) : (s.setTile t x).latch = s.latch := rfl
@[simp] theorem State.setTile_agenda (t : Nat) (x : Tile) : (s.setTile t x).agenda = s.agenda := rfl
@[simp] theorem State.setTile_order (t : Nat) (x : Tile) : (s.setTile t x).order = s.order := rfl
@[simp] theorem State.setTile_free (t : Nat) (x : Tile) : (s.setTile t x).free = s.free := rfl
@[simp] theorem State.setTile_hartAt (t : Nat) (x : Tile) : (s.setTile t x).hartAt = s.hartAt := rfl
@[simp] theorem State.setTile_cores (t : Nat) (x : Tile) : (s.setTile t x).cores = s.cores := rfl
@[simp] theorem State.setTile_tiles (t : Nat) (x : Tile) : (s.setTile t x).tiles = Table.set Tile.idle s.tiles t x := rfl
@[simp] theorem State.setTile_parts (t : Nat) (x : Tile) : (s.setTile t x).parts = s.parts := rfl
@[simp] theorem State.setTile_links (t : Nat) (x : Tile) : (s.setTile t x).links = s.links := rfl
@[simp] theorem State.setTile_waiting (t : Nat) (x : Tile) : (s.setTile t x).waiting = s.waiting := rfl
@[simp] theorem State.setTile_mreds (t : Nat) (x : Tile) : (s.setTile t x).mreds = s.mreds := rfl
@[simp] theorem State.setTile_handles (t : Nat) (x : Tile) : (s.setTile t x).handles = s.handles := rfl
@[simp] theorem State.setTile_handleRegs (t : Nat) (x : Tile) : (s.setTile t x).handleRegs = s.handleRegs := rfl
@[simp] theorem State.setTile_handleBusy (t : Nat) (x : Tile) : (s.setTile t x).handleBusy = s.handleBusy := rfl
@[simp] theorem State.setTile_tlbs (t : Nat) (x : Tile) : (s.setTile t x).tlbs = s.tlbs := rfl
@[simp] theorem State.setTile_tierPoison (t : Nat) (x : Tile) : (s.setTile t x).tierPoison = s.tierPoison := rfl
@[simp] theorem State.setTile_rowSpares (t : Nat) (x : Tile) : (s.setTile t x).rowSpares = s.rowSpares := rfl
@[simp] theorem State.setTile_cardSpares (t : Nat) (x : Tile) : (s.setTile t x).cardSpares = s.cardSpares := rfl
@[simp] theorem State.setTile_rowDraw (t : Nat) (x : Tile) : (s.setTile t x).rowDraw = s.rowDraw := rfl
@[simp] theorem State.setTile_cardBusy (t : Nat) (x : Tile) : (s.setTile t x).cardBusy = s.cardBusy := rfl
@[simp] theorem State.setTile_cardRetries (t : Nat) (x : Tile) : (s.setTile t x).cardRetries = s.cardRetries := rfl
@[simp] theorem State.setTile_colls (t : Nat) (x : Tile) : (s.setTile t x).colls = s.colls := rfl
@[simp] theorem State.setTile_nextColl (t : Nat) (x : Tile) : (s.setTile t x).nextColl = s.nextColl := rfl
@[simp] theorem State.setTile_parity (t : Nat) (x : Tile) : (s.setTile t x).parity = s.parity := rfl
@[simp] theorem State.setTile_queues (t : Nat) (x : Tile) : (s.setTile t x).queues = s.queues := rfl
@[simp] theorem State.setTile_tokens (t : Nat) (x : Tile) : (s.setTile t x).tokens = s.tokens := rfl
@[simp] theorem State.setTile_tier (t : Nat) (x : Tile) : (s.setTile t x).tier = s.tier := rfl
@[simp] theorem State.setTile_hostMem (t : Nat) (x : Tile) : (s.setTile t x).hostMem = s.hostMem := rfl
@[simp] theorem State.setTile_pages (t : Nat) (x : Tile) : (s.setTile t x).pages = s.pages := rfl
@[simp] theorem State.setTile_mapver (t : Nat) (x : Tile) : (s.setTile t x).mapver = s.mapver := rfl
@[simp] theorem State.setTile_spareRow (t : Nat) (x : Tile) : (s.setTile t x).spareRow = s.spareRow := rfl
@[simp] theorem State.setTile_deadMask (t : Nat) (x : Tile) : (s.setTile t x).deadMask = s.deadMask := rfl
@[simp] theorem State.setTile_shifts (t : Nat) (x : Tile) : (s.setTile t x).shifts = s.shifts := rfl
@[simp] theorem State.setTile_zones (t : Nat) (x : Tile) : (s.setTile t x).zones = s.zones := rfl
@[simp] theorem State.setTile_lateDead (t : Nat) (x : Tile) : (s.setTile t x).lateDead = s.lateDead := rfl
@[simp] theorem State.setTile_deadFields (t : Nat) (x : Tile) : (s.setTile t x).deadFields = s.deadFields := rfl
@[simp] theorem State.setTile_lost (t : Nat) (x : Tile) : (s.setTile t x).lost = s.lost := rfl
@[simp] theorem State.setTile_topver (t : Nat) (x : Tile) : (s.setTile t x).topver = s.topver := rfl
@[simp] theorem State.setTile_drift (t : Nat) (x : Tile) : (s.setTile t x).drift = s.drift := rfl
@[simp] theorem State.setTile_adj (t : Nat) (x : Tile) : (s.setTile t x).adj = s.adj := rfl
@[simp] theorem State.setTile_adjAt (t : Nat) (x : Tile) : (s.setTile t x).adjAt = s.adjAt := rfl
@[simp] theorem State.setTile_tadj (t : Nat) (x : Tile) : (s.setTile t x).tadj = s.tadj := rfl
@[simp] theorem State.setTile_modid (t : Nat) (x : Tile) : (s.setTile t x).modid = s.modid := rfl
@[simp] theorem State.setTile_ports (t : Nat) (x : Tile) : (s.setTile t x).ports = s.ports := rfl
@[simp] theorem State.setTile_lostPorts (t : Nat) (x : Tile) : (s.setTile t x).lostPorts = s.lostPorts := rfl
@[simp] theorem State.setTile_armed (t : Nat) (x : Tile) : (s.setTile t x).armed = s.armed := rfl
@[simp] theorem State.setTile_domain (t : Nat) (x : Tile) : (s.setTile t x).domain = s.domain := rfl
@[simp] theorem State.setTile_interval (t : Nat) (x : Tile) : (s.setTile t x).interval = s.interval := rfl
@[simp] theorem State.setTile_intervalAt (t : Nat) (x : Tile) : (s.setTile t x).intervalAt = s.intervalAt := rfl
@[simp] theorem State.setTile_circuits (t : Nat) (x : Tile) : (s.setTile t x).circuits = s.circuits := rfl
@[simp] theorem State.setTile_reports (t : Nat) (x : Tile) : (s.setTile t x).reports = s.reports := rfl
@[simp] theorem State.setTile_serving (t : Nat) (x : Tile) : (s.setTile t x).serving = s.serving := rfl
@[simp] theorem State.setTile_guard_ (t : Nat) (x : Tile) : (s.setTile t x).guard_ = s.guard_ := rfl
@[simp] theorem State.setTile_spares (t : Nat) (x : Tile) : (s.setTile t x).spares = s.spares := rfl
@[simp] theorem State.setTile_rebuilds (t : Nat) (x : Tile) : (s.setTile t x).rebuilds = s.rebuilds := rfl
@[simp] theorem State.setTile_jobRanks (t : Nat) (x : Tile) : (s.setTile t x).jobRanks = s.jobRanks := rfl
@[simp] theorem State.setTile_jobPlanes (t : Nat) (x : Tile) : (s.setTile t x).jobPlanes = s.jobPlanes := rfl
@[simp] theorem State.setTile_jobUses (t : Nat) (x : Tile) : (s.setTile t x).jobUses = s.jobUses := rfl
@[simp] theorem State.setTile_lostSpares (t : Nat) (x : Tile) : (s.setTile t x).lostSpares = s.lostSpares := rfl
@[simp] theorem State.setTile_jobMaps (t : Nat) (x : Tile) : (s.setTile t x).jobMaps = s.jobMaps := rfl
@[simp] theorem State.setTile_images (t : Nat) (x : Tile) : (s.setTile t x).images = s.images := rfl
@[simp] theorem State.setTile_served (t : Nat) (x : Tile) : (s.setTile t x).served = s.served := rfl
@[simp] theorem State.setTile_manifests (t : Nat) (x : Tile) : (s.setTile t x).manifests = s.manifests := rfl
@[simp] theorem State.setTile_lease (t : Nat) (x : Tile) : (s.setTile t x).lease = s.lease := rfl
@[simp] theorem State.setTile_boot (t : Nat) (x : Tile) : (s.setTile t x).boot = s.boot := rfl
@[simp] theorem State.setTile_nohist (t : Nat) (x : Tile) : (s.setTile t x).nohist = s.nohist := rfl
@[simp] theorem State.setTile_mgmt (t : Nat) (x : Tile) : (s.setTile t x).mgmt = s.mgmt := rfl
@[simp] theorem State.setTile_firmware (t : Nat) (x : Tile) : (s.setTile t x).firmware = s.firmware := rfl
@[simp] theorem State.setTile_identity (t : Nat) (x : Tile) : (s.setTile t x).identity = s.identity := rfl

/-! ## `setPart` -/

@[simp] theorem State.setPart_now (p : Nat) (x : Part) : (s.setPart p x).now = s.now := rfl
@[simp] theorem State.setPart_tickOn (p : Nat) (x : Part) : (s.setPart p x).tickOn = s.tickOn := rfl
@[simp] theorem State.setPart_tickOff (p : Nat) (x : Part) : (s.setPart p x).tickOff = s.tickOff := rfl
@[simp] theorem State.setPart_latch (p : Nat) (x : Part) : (s.setPart p x).latch = s.latch := rfl
@[simp] theorem State.setPart_agenda (p : Nat) (x : Part) : (s.setPart p x).agenda = s.agenda := rfl
@[simp] theorem State.setPart_order (p : Nat) (x : Part) : (s.setPart p x).order = s.order := rfl
@[simp] theorem State.setPart_free (p : Nat) (x : Part) : (s.setPart p x).free = s.free := rfl
@[simp] theorem State.setPart_hartAt (p : Nat) (x : Part) : (s.setPart p x).hartAt = s.hartAt := rfl
@[simp] theorem State.setPart_cores (p : Nat) (x : Part) : (s.setPart p x).cores = s.cores := rfl
@[simp] theorem State.setPart_tiles (p : Nat) (x : Part) : (s.setPart p x).tiles = s.tiles := rfl
@[simp] theorem State.setPart_parts (p : Nat) (x : Part) : (s.setPart p x).parts = Table.set Part.none s.parts p x := rfl
@[simp] theorem State.setPart_links (p : Nat) (x : Part) : (s.setPart p x).links = s.links := rfl
@[simp] theorem State.setPart_waiting (p : Nat) (x : Part) : (s.setPart p x).waiting = s.waiting := rfl
@[simp] theorem State.setPart_mreds (p : Nat) (x : Part) : (s.setPart p x).mreds = s.mreds := rfl
@[simp] theorem State.setPart_handles (p : Nat) (x : Part) : (s.setPart p x).handles = s.handles := rfl
@[simp] theorem State.setPart_handleRegs (p : Nat) (x : Part) : (s.setPart p x).handleRegs = s.handleRegs := rfl
@[simp] theorem State.setPart_handleBusy (p : Nat) (x : Part) : (s.setPart p x).handleBusy = s.handleBusy := rfl
@[simp] theorem State.setPart_tlbs (p : Nat) (x : Part) : (s.setPart p x).tlbs = s.tlbs := rfl
@[simp] theorem State.setPart_tierPoison (p : Nat) (x : Part) : (s.setPart p x).tierPoison = s.tierPoison := rfl
@[simp] theorem State.setPart_rowSpares (p : Nat) (x : Part) : (s.setPart p x).rowSpares = s.rowSpares := rfl
@[simp] theorem State.setPart_cardSpares (p : Nat) (x : Part) : (s.setPart p x).cardSpares = s.cardSpares := rfl
@[simp] theorem State.setPart_rowDraw (p : Nat) (x : Part) : (s.setPart p x).rowDraw = s.rowDraw := rfl
@[simp] theorem State.setPart_cardBusy (p : Nat) (x : Part) : (s.setPart p x).cardBusy = s.cardBusy := rfl
@[simp] theorem State.setPart_cardRetries (p : Nat) (x : Part) : (s.setPart p x).cardRetries = s.cardRetries := rfl
@[simp] theorem State.setPart_colls (p : Nat) (x : Part) : (s.setPart p x).colls = s.colls := rfl
@[simp] theorem State.setPart_nextColl (p : Nat) (x : Part) : (s.setPart p x).nextColl = s.nextColl := rfl
@[simp] theorem State.setPart_parity (p : Nat) (x : Part) : (s.setPart p x).parity = s.parity := rfl
@[simp] theorem State.setPart_queues (p : Nat) (x : Part) : (s.setPart p x).queues = s.queues := rfl
@[simp] theorem State.setPart_tokens (p : Nat) (x : Part) : (s.setPart p x).tokens = s.tokens := rfl
@[simp] theorem State.setPart_tier (p : Nat) (x : Part) : (s.setPart p x).tier = s.tier := rfl
@[simp] theorem State.setPart_hostMem (p : Nat) (x : Part) : (s.setPart p x).hostMem = s.hostMem := rfl
@[simp] theorem State.setPart_pages (p : Nat) (x : Part) : (s.setPart p x).pages = s.pages := rfl
@[simp] theorem State.setPart_mapver (p : Nat) (x : Part) : (s.setPart p x).mapver = s.mapver := rfl
@[simp] theorem State.setPart_spareRow (p : Nat) (x : Part) : (s.setPart p x).spareRow = s.spareRow := rfl
@[simp] theorem State.setPart_deadMask (p : Nat) (x : Part) : (s.setPart p x).deadMask = s.deadMask := rfl
@[simp] theorem State.setPart_shifts (p : Nat) (x : Part) : (s.setPart p x).shifts = s.shifts := rfl
@[simp] theorem State.setPart_zones (p : Nat) (x : Part) : (s.setPart p x).zones = s.zones := rfl
@[simp] theorem State.setPart_lateDead (p : Nat) (x : Part) : (s.setPart p x).lateDead = s.lateDead := rfl
@[simp] theorem State.setPart_deadFields (p : Nat) (x : Part) : (s.setPart p x).deadFields = s.deadFields := rfl
@[simp] theorem State.setPart_lost (p : Nat) (x : Part) : (s.setPart p x).lost = s.lost := rfl
@[simp] theorem State.setPart_topver (p : Nat) (x : Part) : (s.setPart p x).topver = s.topver := rfl
@[simp] theorem State.setPart_drift (p : Nat) (x : Part) : (s.setPart p x).drift = s.drift := rfl
@[simp] theorem State.setPart_adj (p : Nat) (x : Part) : (s.setPart p x).adj = s.adj := rfl
@[simp] theorem State.setPart_adjAt (p : Nat) (x : Part) : (s.setPart p x).adjAt = s.adjAt := rfl
@[simp] theorem State.setPart_tadj (p : Nat) (x : Part) : (s.setPart p x).tadj = s.tadj := rfl
@[simp] theorem State.setPart_modid (p : Nat) (x : Part) : (s.setPart p x).modid = s.modid := rfl
@[simp] theorem State.setPart_ports (p : Nat) (x : Part) : (s.setPart p x).ports = s.ports := rfl
@[simp] theorem State.setPart_lostPorts (p : Nat) (x : Part) : (s.setPart p x).lostPorts = s.lostPorts := rfl
@[simp] theorem State.setPart_armed (p : Nat) (x : Part) : (s.setPart p x).armed = s.armed := rfl
@[simp] theorem State.setPart_domain (p : Nat) (x : Part) : (s.setPart p x).domain = s.domain := rfl
@[simp] theorem State.setPart_interval (p : Nat) (x : Part) : (s.setPart p x).interval = s.interval := rfl
@[simp] theorem State.setPart_intervalAt (p : Nat) (x : Part) : (s.setPart p x).intervalAt = s.intervalAt := rfl
@[simp] theorem State.setPart_circuits (p : Nat) (x : Part) : (s.setPart p x).circuits = s.circuits := rfl
@[simp] theorem State.setPart_reports (p : Nat) (x : Part) : (s.setPart p x).reports = s.reports := rfl
@[simp] theorem State.setPart_serving (p : Nat) (x : Part) : (s.setPart p x).serving = s.serving := rfl
@[simp] theorem State.setPart_guard_ (p : Nat) (x : Part) : (s.setPart p x).guard_ = s.guard_ := rfl
@[simp] theorem State.setPart_spares (p : Nat) (x : Part) : (s.setPart p x).spares = s.spares := rfl
@[simp] theorem State.setPart_rebuilds (p : Nat) (x : Part) : (s.setPart p x).rebuilds = s.rebuilds := rfl
@[simp] theorem State.setPart_jobRanks (p : Nat) (x : Part) : (s.setPart p x).jobRanks = s.jobRanks := rfl
@[simp] theorem State.setPart_jobPlanes (p : Nat) (x : Part) : (s.setPart p x).jobPlanes = s.jobPlanes := rfl
@[simp] theorem State.setPart_jobUses (p : Nat) (x : Part) : (s.setPart p x).jobUses = s.jobUses := rfl
@[simp] theorem State.setPart_lostSpares (p : Nat) (x : Part) : (s.setPart p x).lostSpares = s.lostSpares := rfl
@[simp] theorem State.setPart_jobMaps (p : Nat) (x : Part) : (s.setPart p x).jobMaps = s.jobMaps := rfl
@[simp] theorem State.setPart_images (p : Nat) (x : Part) : (s.setPart p x).images = s.images := rfl
@[simp] theorem State.setPart_served (p : Nat) (x : Part) : (s.setPart p x).served = s.served := rfl
@[simp] theorem State.setPart_manifests (p : Nat) (x : Part) : (s.setPart p x).manifests = s.manifests := rfl
@[simp] theorem State.setPart_lease (p : Nat) (x : Part) : (s.setPart p x).lease = s.lease := rfl
@[simp] theorem State.setPart_boot (p : Nat) (x : Part) : (s.setPart p x).boot = s.boot := rfl
@[simp] theorem State.setPart_nohist (p : Nat) (x : Part) : (s.setPart p x).nohist = s.nohist := rfl
@[simp] theorem State.setPart_mgmt (p : Nat) (x : Part) : (s.setPart p x).mgmt = s.mgmt := rfl
@[simp] theorem State.setPart_firmware (p : Nat) (x : Part) : (s.setPart p x).firmware = s.firmware := rfl
@[simp] theorem State.setPart_identity (p : Nat) (x : Part) : (s.setPart p x).identity = s.identity := rfl

/-! ## `setQueue` -/

@[simp] theorem State.setQueue_now (q : Nat) (x : Queue) : (s.setQueue q x).now = s.now := rfl
@[simp] theorem State.setQueue_tickOn (q : Nat) (x : Queue) : (s.setQueue q x).tickOn = s.tickOn := rfl
@[simp] theorem State.setQueue_tickOff (q : Nat) (x : Queue) : (s.setQueue q x).tickOff = s.tickOff := rfl
@[simp] theorem State.setQueue_latch (q : Nat) (x : Queue) : (s.setQueue q x).latch = s.latch := rfl
@[simp] theorem State.setQueue_agenda (q : Nat) (x : Queue) : (s.setQueue q x).agenda = s.agenda := rfl
@[simp] theorem State.setQueue_order (q : Nat) (x : Queue) : (s.setQueue q x).order = s.order := rfl
@[simp] theorem State.setQueue_free (q : Nat) (x : Queue) : (s.setQueue q x).free = s.free := rfl
@[simp] theorem State.setQueue_hartAt (q : Nat) (x : Queue) : (s.setQueue q x).hartAt = s.hartAt := rfl
@[simp] theorem State.setQueue_cores (q : Nat) (x : Queue) : (s.setQueue q x).cores = s.cores := rfl
@[simp] theorem State.setQueue_tiles (q : Nat) (x : Queue) : (s.setQueue q x).tiles = s.tiles := rfl
@[simp] theorem State.setQueue_parts (q : Nat) (x : Queue) : (s.setQueue q x).parts = s.parts := rfl
@[simp] theorem State.setQueue_links (q : Nat) (x : Queue) : (s.setQueue q x).links = s.links := rfl
@[simp] theorem State.setQueue_waiting (q : Nat) (x : Queue) : (s.setQueue q x).waiting = s.waiting := rfl
@[simp] theorem State.setQueue_mreds (q : Nat) (x : Queue) : (s.setQueue q x).mreds = s.mreds := rfl
@[simp] theorem State.setQueue_handles (q : Nat) (x : Queue) : (s.setQueue q x).handles = s.handles := rfl
@[simp] theorem State.setQueue_handleRegs (q : Nat) (x : Queue) : (s.setQueue q x).handleRegs = s.handleRegs := rfl
@[simp] theorem State.setQueue_handleBusy (q : Nat) (x : Queue) : (s.setQueue q x).handleBusy = s.handleBusy := rfl
@[simp] theorem State.setQueue_tlbs (q : Nat) (x : Queue) : (s.setQueue q x).tlbs = s.tlbs := rfl
@[simp] theorem State.setQueue_tierPoison (q : Nat) (x : Queue) : (s.setQueue q x).tierPoison = s.tierPoison := rfl
@[simp] theorem State.setQueue_rowSpares (q : Nat) (x : Queue) : (s.setQueue q x).rowSpares = s.rowSpares := rfl
@[simp] theorem State.setQueue_cardSpares (q : Nat) (x : Queue) : (s.setQueue q x).cardSpares = s.cardSpares := rfl
@[simp] theorem State.setQueue_rowDraw (q : Nat) (x : Queue) : (s.setQueue q x).rowDraw = s.rowDraw := rfl
@[simp] theorem State.setQueue_cardBusy (q : Nat) (x : Queue) : (s.setQueue q x).cardBusy = s.cardBusy := rfl
@[simp] theorem State.setQueue_cardRetries (q : Nat) (x : Queue) : (s.setQueue q x).cardRetries = s.cardRetries := rfl
@[simp] theorem State.setQueue_colls (q : Nat) (x : Queue) : (s.setQueue q x).colls = s.colls := rfl
@[simp] theorem State.setQueue_nextColl (q : Nat) (x : Queue) : (s.setQueue q x).nextColl = s.nextColl := rfl
@[simp] theorem State.setQueue_parity (q : Nat) (x : Queue) : (s.setQueue q x).parity = s.parity := rfl
@[simp] theorem State.setQueue_queues (q : Nat) (x : Queue) : (s.setQueue q x).queues = Table.set Queue.reset s.queues q x := rfl
@[simp] theorem State.setQueue_tokens (q : Nat) (x : Queue) : (s.setQueue q x).tokens = s.tokens := rfl
@[simp] theorem State.setQueue_tier (q : Nat) (x : Queue) : (s.setQueue q x).tier = s.tier := rfl
@[simp] theorem State.setQueue_hostMem (q : Nat) (x : Queue) : (s.setQueue q x).hostMem = s.hostMem := rfl
@[simp] theorem State.setQueue_pages (q : Nat) (x : Queue) : (s.setQueue q x).pages = s.pages := rfl
@[simp] theorem State.setQueue_mapver (q : Nat) (x : Queue) : (s.setQueue q x).mapver = s.mapver := rfl
@[simp] theorem State.setQueue_spareRow (q : Nat) (x : Queue) : (s.setQueue q x).spareRow = s.spareRow := rfl
@[simp] theorem State.setQueue_deadMask (q : Nat) (x : Queue) : (s.setQueue q x).deadMask = s.deadMask := rfl
@[simp] theorem State.setQueue_shifts (q : Nat) (x : Queue) : (s.setQueue q x).shifts = s.shifts := rfl
@[simp] theorem State.setQueue_zones (q : Nat) (x : Queue) : (s.setQueue q x).zones = s.zones := rfl
@[simp] theorem State.setQueue_lateDead (q : Nat) (x : Queue) : (s.setQueue q x).lateDead = s.lateDead := rfl
@[simp] theorem State.setQueue_deadFields (q : Nat) (x : Queue) : (s.setQueue q x).deadFields = s.deadFields := rfl
@[simp] theorem State.setQueue_lost (q : Nat) (x : Queue) : (s.setQueue q x).lost = s.lost := rfl
@[simp] theorem State.setQueue_topver (q : Nat) (x : Queue) : (s.setQueue q x).topver = s.topver := rfl
@[simp] theorem State.setQueue_drift (q : Nat) (x : Queue) : (s.setQueue q x).drift = s.drift := rfl
@[simp] theorem State.setQueue_adj (q : Nat) (x : Queue) : (s.setQueue q x).adj = s.adj := rfl
@[simp] theorem State.setQueue_adjAt (q : Nat) (x : Queue) : (s.setQueue q x).adjAt = s.adjAt := rfl
@[simp] theorem State.setQueue_tadj (q : Nat) (x : Queue) : (s.setQueue q x).tadj = s.tadj := rfl
@[simp] theorem State.setQueue_modid (q : Nat) (x : Queue) : (s.setQueue q x).modid = s.modid := rfl
@[simp] theorem State.setQueue_ports (q : Nat) (x : Queue) : (s.setQueue q x).ports = s.ports := rfl
@[simp] theorem State.setQueue_lostPorts (q : Nat) (x : Queue) : (s.setQueue q x).lostPorts = s.lostPorts := rfl
@[simp] theorem State.setQueue_armed (q : Nat) (x : Queue) : (s.setQueue q x).armed = s.armed := rfl
@[simp] theorem State.setQueue_domain (q : Nat) (x : Queue) : (s.setQueue q x).domain = s.domain := rfl
@[simp] theorem State.setQueue_interval (q : Nat) (x : Queue) : (s.setQueue q x).interval = s.interval := rfl
@[simp] theorem State.setQueue_intervalAt (q : Nat) (x : Queue) : (s.setQueue q x).intervalAt = s.intervalAt := rfl
@[simp] theorem State.setQueue_circuits (q : Nat) (x : Queue) : (s.setQueue q x).circuits = s.circuits := rfl
@[simp] theorem State.setQueue_reports (q : Nat) (x : Queue) : (s.setQueue q x).reports = s.reports := rfl
@[simp] theorem State.setQueue_serving (q : Nat) (x : Queue) : (s.setQueue q x).serving = s.serving := rfl
@[simp] theorem State.setQueue_guard_ (q : Nat) (x : Queue) : (s.setQueue q x).guard_ = s.guard_ := rfl
@[simp] theorem State.setQueue_spares (q : Nat) (x : Queue) : (s.setQueue q x).spares = s.spares := rfl
@[simp] theorem State.setQueue_rebuilds (q : Nat) (x : Queue) : (s.setQueue q x).rebuilds = s.rebuilds := rfl
@[simp] theorem State.setQueue_jobRanks (q : Nat) (x : Queue) : (s.setQueue q x).jobRanks = s.jobRanks := rfl
@[simp] theorem State.setQueue_jobPlanes (q : Nat) (x : Queue) : (s.setQueue q x).jobPlanes = s.jobPlanes := rfl
@[simp] theorem State.setQueue_jobUses (q : Nat) (x : Queue) : (s.setQueue q x).jobUses = s.jobUses := rfl
@[simp] theorem State.setQueue_lostSpares (q : Nat) (x : Queue) : (s.setQueue q x).lostSpares = s.lostSpares := rfl
@[simp] theorem State.setQueue_jobMaps (q : Nat) (x : Queue) : (s.setQueue q x).jobMaps = s.jobMaps := rfl
@[simp] theorem State.setQueue_images (q : Nat) (x : Queue) : (s.setQueue q x).images = s.images := rfl
@[simp] theorem State.setQueue_served (q : Nat) (x : Queue) : (s.setQueue q x).served = s.served := rfl
@[simp] theorem State.setQueue_manifests (q : Nat) (x : Queue) : (s.setQueue q x).manifests = s.manifests := rfl
@[simp] theorem State.setQueue_lease (q : Nat) (x : Queue) : (s.setQueue q x).lease = s.lease := rfl
@[simp] theorem State.setQueue_boot (q : Nat) (x : Queue) : (s.setQueue q x).boot = s.boot := rfl
@[simp] theorem State.setQueue_nohist (q : Nat) (x : Queue) : (s.setQueue q x).nohist = s.nohist := rfl
@[simp] theorem State.setQueue_mgmt (q : Nat) (x : Queue) : (s.setQueue q x).mgmt = s.mgmt := rfl
@[simp] theorem State.setQueue_firmware (q : Nat) (x : Queue) : (s.setQueue q x).firmware = s.firmware := rfl
@[simp] theorem State.setQueue_identity (q : Nat) (x : Queue) : (s.setQueue q x).identity = s.identity := rfl

/-! ## `postKey` -/

@[simp] theorem State.postKey_now (n r k : Nat) (e : Event) : (s.postKey n r k e).now = s.now := rfl
@[simp] theorem State.postKey_tickOn (n r k : Nat) (e : Event) : (s.postKey n r k e).tickOn = s.tickOn := rfl
@[simp] theorem State.postKey_tickOff (n r k : Nat) (e : Event) : (s.postKey n r k e).tickOff = s.tickOff := rfl
@[simp] theorem State.postKey_latch (n r k : Nat) (e : Event) : (s.postKey n r k e).latch = s.latch := rfl
@[simp] theorem State.postKey_agenda (n r k : Nat) (e : Event) : (s.postKey n r k e).agenda = insertEv { at_ := n, rank := r, key := k, ev := e } s.agenda := rfl
@[simp] theorem State.postKey_order (n r k : Nat) (e : Event) : (s.postKey n r k e).order = s.order := rfl
@[simp] theorem State.postKey_free (n r k : Nat) (e : Event) : (s.postKey n r k e).free = s.free := rfl
@[simp] theorem State.postKey_hartAt (n r k : Nat) (e : Event) : (s.postKey n r k e).hartAt = s.hartAt := rfl
@[simp] theorem State.postKey_cores (n r k : Nat) (e : Event) : (s.postKey n r k e).cores = s.cores := rfl
@[simp] theorem State.postKey_tiles (n r k : Nat) (e : Event) : (s.postKey n r k e).tiles = s.tiles := rfl
@[simp] theorem State.postKey_parts (n r k : Nat) (e : Event) : (s.postKey n r k e).parts = s.parts := rfl
@[simp] theorem State.postKey_links (n r k : Nat) (e : Event) : (s.postKey n r k e).links = s.links := rfl
@[simp] theorem State.postKey_waiting (n r k : Nat) (e : Event) : (s.postKey n r k e).waiting = s.waiting := rfl
@[simp] theorem State.postKey_mreds (n r k : Nat) (e : Event) : (s.postKey n r k e).mreds = s.mreds := rfl
@[simp] theorem State.postKey_handles (n r k : Nat) (e : Event) : (s.postKey n r k e).handles = s.handles := rfl
@[simp] theorem State.postKey_handleRegs (n r k : Nat) (e : Event) : (s.postKey n r k e).handleRegs = s.handleRegs := rfl
@[simp] theorem State.postKey_handleBusy (n r k : Nat) (e : Event) : (s.postKey n r k e).handleBusy = s.handleBusy := rfl
@[simp] theorem State.postKey_tlbs (n r k : Nat) (e : Event) : (s.postKey n r k e).tlbs = s.tlbs := rfl
@[simp] theorem State.postKey_tierPoison (n r k : Nat) (e : Event) : (s.postKey n r k e).tierPoison = s.tierPoison := rfl
@[simp] theorem State.postKey_rowSpares (n r k : Nat) (e : Event) : (s.postKey n r k e).rowSpares = s.rowSpares := rfl
@[simp] theorem State.postKey_cardSpares (n r k : Nat) (e : Event) : (s.postKey n r k e).cardSpares = s.cardSpares := rfl
@[simp] theorem State.postKey_rowDraw (n r k : Nat) (e : Event) : (s.postKey n r k e).rowDraw = s.rowDraw := rfl
@[simp] theorem State.postKey_cardBusy (n r k : Nat) (e : Event) : (s.postKey n r k e).cardBusy = s.cardBusy := rfl
@[simp] theorem State.postKey_cardRetries (n r k : Nat) (e : Event) : (s.postKey n r k e).cardRetries = s.cardRetries := rfl
@[simp] theorem State.postKey_colls (n r k : Nat) (e : Event) : (s.postKey n r k e).colls = s.colls := rfl
@[simp] theorem State.postKey_nextColl (n r k : Nat) (e : Event) : (s.postKey n r k e).nextColl = s.nextColl := rfl
@[simp] theorem State.postKey_parity (n r k : Nat) (e : Event) : (s.postKey n r k e).parity = s.parity := rfl
@[simp] theorem State.postKey_queues (n r k : Nat) (e : Event) : (s.postKey n r k e).queues = s.queues := rfl
@[simp] theorem State.postKey_tokens (n r k : Nat) (e : Event) : (s.postKey n r k e).tokens = s.tokens := rfl
@[simp] theorem State.postKey_tier (n r k : Nat) (e : Event) : (s.postKey n r k e).tier = s.tier := rfl
@[simp] theorem State.postKey_hostMem (n r k : Nat) (e : Event) : (s.postKey n r k e).hostMem = s.hostMem := rfl
@[simp] theorem State.postKey_pages (n r k : Nat) (e : Event) : (s.postKey n r k e).pages = s.pages := rfl
@[simp] theorem State.postKey_mapver (n r k : Nat) (e : Event) : (s.postKey n r k e).mapver = s.mapver := rfl
@[simp] theorem State.postKey_spareRow (n r k : Nat) (e : Event) : (s.postKey n r k e).spareRow = s.spareRow := rfl
@[simp] theorem State.postKey_deadMask (n r k : Nat) (e : Event) : (s.postKey n r k e).deadMask = s.deadMask := rfl
@[simp] theorem State.postKey_shifts (n r k : Nat) (e : Event) : (s.postKey n r k e).shifts = s.shifts := rfl
@[simp] theorem State.postKey_zones (n r k : Nat) (e : Event) : (s.postKey n r k e).zones = s.zones := rfl
@[simp] theorem State.postKey_lateDead (n r k : Nat) (e : Event) : (s.postKey n r k e).lateDead = s.lateDead := rfl
@[simp] theorem State.postKey_deadFields (n r k : Nat) (e : Event) : (s.postKey n r k e).deadFields = s.deadFields := rfl
@[simp] theorem State.postKey_lost (n r k : Nat) (e : Event) : (s.postKey n r k e).lost = s.lost := rfl
@[simp] theorem State.postKey_topver (n r k : Nat) (e : Event) : (s.postKey n r k e).topver = s.topver := rfl
@[simp] theorem State.postKey_drift (n r k : Nat) (e : Event) : (s.postKey n r k e).drift = s.drift := rfl
@[simp] theorem State.postKey_adj (n r k : Nat) (e : Event) : (s.postKey n r k e).adj = s.adj := rfl
@[simp] theorem State.postKey_adjAt (n r k : Nat) (e : Event) : (s.postKey n r k e).adjAt = s.adjAt := rfl
@[simp] theorem State.postKey_tadj (n r k : Nat) (e : Event) : (s.postKey n r k e).tadj = s.tadj := rfl
@[simp] theorem State.postKey_modid (n r k : Nat) (e : Event) : (s.postKey n r k e).modid = s.modid := rfl
@[simp] theorem State.postKey_ports (n r k : Nat) (e : Event) : (s.postKey n r k e).ports = s.ports := rfl
@[simp] theorem State.postKey_lostPorts (n r k : Nat) (e : Event) : (s.postKey n r k e).lostPorts = s.lostPorts := rfl
@[simp] theorem State.postKey_armed (n r k : Nat) (e : Event) : (s.postKey n r k e).armed = s.armed := rfl
@[simp] theorem State.postKey_domain (n r k : Nat) (e : Event) : (s.postKey n r k e).domain = s.domain := rfl
@[simp] theorem State.postKey_interval (n r k : Nat) (e : Event) : (s.postKey n r k e).interval = s.interval := rfl
@[simp] theorem State.postKey_intervalAt (n r k : Nat) (e : Event) : (s.postKey n r k e).intervalAt = s.intervalAt := rfl
@[simp] theorem State.postKey_circuits (n r k : Nat) (e : Event) : (s.postKey n r k e).circuits = s.circuits := rfl
@[simp] theorem State.postKey_reports (n r k : Nat) (e : Event) : (s.postKey n r k e).reports = s.reports := rfl
@[simp] theorem State.postKey_serving (n r k : Nat) (e : Event) : (s.postKey n r k e).serving = s.serving := rfl
@[simp] theorem State.postKey_guard_ (n r k : Nat) (e : Event) : (s.postKey n r k e).guard_ = s.guard_ := rfl
@[simp] theorem State.postKey_spares (n r k : Nat) (e : Event) : (s.postKey n r k e).spares = s.spares := rfl
@[simp] theorem State.postKey_rebuilds (n r k : Nat) (e : Event) : (s.postKey n r k e).rebuilds = s.rebuilds := rfl
@[simp] theorem State.postKey_jobRanks (n r k : Nat) (e : Event) : (s.postKey n r k e).jobRanks = s.jobRanks := rfl
@[simp] theorem State.postKey_jobPlanes (n r k : Nat) (e : Event) : (s.postKey n r k e).jobPlanes = s.jobPlanes := rfl
@[simp] theorem State.postKey_jobUses (n r k : Nat) (e : Event) : (s.postKey n r k e).jobUses = s.jobUses := rfl
@[simp] theorem State.postKey_lostSpares (n r k : Nat) (e : Event) : (s.postKey n r k e).lostSpares = s.lostSpares := rfl
@[simp] theorem State.postKey_jobMaps (n r k : Nat) (e : Event) : (s.postKey n r k e).jobMaps = s.jobMaps := rfl
@[simp] theorem State.postKey_images (n r k : Nat) (e : Event) : (s.postKey n r k e).images = s.images := rfl
@[simp] theorem State.postKey_served (n r k : Nat) (e : Event) : (s.postKey n r k e).served = s.served := rfl
@[simp] theorem State.postKey_manifests (n r k : Nat) (e : Event) : (s.postKey n r k e).manifests = s.manifests := rfl
@[simp] theorem State.postKey_lease (n r k : Nat) (e : Event) : (s.postKey n r k e).lease = s.lease := rfl
@[simp] theorem State.postKey_boot (n r k : Nat) (e : Event) : (s.postKey n r k e).boot = s.boot := rfl
@[simp] theorem State.postKey_nohist (n r k : Nat) (e : Event) : (s.postKey n r k e).nohist = s.nohist := rfl
@[simp] theorem State.postKey_mgmt (n r k : Nat) (e : Event) : (s.postKey n r k e).mgmt = s.mgmt := rfl
@[simp] theorem State.postKey_firmware (n r k : Nat) (e : Event) : (s.postKey n r k e).firmware = s.firmware := rfl
@[simp] theorem State.postKey_identity (n r k : Nat) (e : Event) : (s.postKey n r k e).identity = s.identity := rfl

/-! ## `post` -/

@[simp] theorem State.post_now (n r : Nat) (e : Event) : (s.post n r e).now = s.now := rfl
@[simp] theorem State.post_tickOn (n r : Nat) (e : Event) : (s.post n r e).tickOn = s.tickOn := rfl
@[simp] theorem State.post_tickOff (n r : Nat) (e : Event) : (s.post n r e).tickOff = s.tickOff := rfl
@[simp] theorem State.post_latch (n r : Nat) (e : Event) : (s.post n r e).latch = s.latch := rfl
@[simp] theorem State.post_agenda (n r : Nat) (e : Event) : (s.post n r e).agenda = insertEv { at_ := n, rank := r, key := s.order, ev := e } s.agenda := rfl
@[simp] theorem State.post_order (n r : Nat) (e : Event) : (s.post n r e).order = s.order + 1 := rfl
@[simp] theorem State.post_free (n r : Nat) (e : Event) : (s.post n r e).free = s.free := rfl
@[simp] theorem State.post_hartAt (n r : Nat) (e : Event) : (s.post n r e).hartAt = s.hartAt := rfl
@[simp] theorem State.post_cores (n r : Nat) (e : Event) : (s.post n r e).cores = s.cores := rfl
@[simp] theorem State.post_tiles (n r : Nat) (e : Event) : (s.post n r e).tiles = s.tiles := rfl
@[simp] theorem State.post_parts (n r : Nat) (e : Event) : (s.post n r e).parts = s.parts := rfl
@[simp] theorem State.post_links (n r : Nat) (e : Event) : (s.post n r e).links = s.links := rfl
@[simp] theorem State.post_waiting (n r : Nat) (e : Event) : (s.post n r e).waiting = s.waiting := rfl
@[simp] theorem State.post_mreds (n r : Nat) (e : Event) : (s.post n r e).mreds = s.mreds := rfl
@[simp] theorem State.post_handles (n r : Nat) (e : Event) : (s.post n r e).handles = s.handles := rfl
@[simp] theorem State.post_handleRegs (n r : Nat) (e : Event) : (s.post n r e).handleRegs = s.handleRegs := rfl
@[simp] theorem State.post_handleBusy (n r : Nat) (e : Event) : (s.post n r e).handleBusy = s.handleBusy := rfl
@[simp] theorem State.post_tlbs (n r : Nat) (e : Event) : (s.post n r e).tlbs = s.tlbs := rfl
@[simp] theorem State.post_tierPoison (n r : Nat) (e : Event) : (s.post n r e).tierPoison = s.tierPoison := rfl
@[simp] theorem State.post_rowSpares (n r : Nat) (e : Event) : (s.post n r e).rowSpares = s.rowSpares := rfl
@[simp] theorem State.post_cardSpares (n r : Nat) (e : Event) : (s.post n r e).cardSpares = s.cardSpares := rfl
@[simp] theorem State.post_rowDraw (n r : Nat) (e : Event) : (s.post n r e).rowDraw = s.rowDraw := rfl
@[simp] theorem State.post_cardBusy (n r : Nat) (e : Event) : (s.post n r e).cardBusy = s.cardBusy := rfl
@[simp] theorem State.post_cardRetries (n r : Nat) (e : Event) : (s.post n r e).cardRetries = s.cardRetries := rfl
@[simp] theorem State.post_colls (n r : Nat) (e : Event) : (s.post n r e).colls = s.colls := rfl
@[simp] theorem State.post_nextColl (n r : Nat) (e : Event) : (s.post n r e).nextColl = s.nextColl := rfl
@[simp] theorem State.post_parity (n r : Nat) (e : Event) : (s.post n r e).parity = s.parity := rfl
@[simp] theorem State.post_queues (n r : Nat) (e : Event) : (s.post n r e).queues = s.queues := rfl
@[simp] theorem State.post_tokens (n r : Nat) (e : Event) : (s.post n r e).tokens = s.tokens := rfl
@[simp] theorem State.post_tier (n r : Nat) (e : Event) : (s.post n r e).tier = s.tier := rfl
@[simp] theorem State.post_hostMem (n r : Nat) (e : Event) : (s.post n r e).hostMem = s.hostMem := rfl
@[simp] theorem State.post_pages (n r : Nat) (e : Event) : (s.post n r e).pages = s.pages := rfl
@[simp] theorem State.post_mapver (n r : Nat) (e : Event) : (s.post n r e).mapver = s.mapver := rfl
@[simp] theorem State.post_spareRow (n r : Nat) (e : Event) : (s.post n r e).spareRow = s.spareRow := rfl
@[simp] theorem State.post_deadMask (n r : Nat) (e : Event) : (s.post n r e).deadMask = s.deadMask := rfl
@[simp] theorem State.post_shifts (n r : Nat) (e : Event) : (s.post n r e).shifts = s.shifts := rfl
@[simp] theorem State.post_zones (n r : Nat) (e : Event) : (s.post n r e).zones = s.zones := rfl
@[simp] theorem State.post_lateDead (n r : Nat) (e : Event) : (s.post n r e).lateDead = s.lateDead := rfl
@[simp] theorem State.post_deadFields (n r : Nat) (e : Event) : (s.post n r e).deadFields = s.deadFields := rfl
@[simp] theorem State.post_lost (n r : Nat) (e : Event) : (s.post n r e).lost = s.lost := rfl
@[simp] theorem State.post_topver (n r : Nat) (e : Event) : (s.post n r e).topver = s.topver := rfl
@[simp] theorem State.post_drift (n r : Nat) (e : Event) : (s.post n r e).drift = s.drift := rfl
@[simp] theorem State.post_adj (n r : Nat) (e : Event) : (s.post n r e).adj = s.adj := rfl
@[simp] theorem State.post_adjAt (n r : Nat) (e : Event) : (s.post n r e).adjAt = s.adjAt := rfl
@[simp] theorem State.post_tadj (n r : Nat) (e : Event) : (s.post n r e).tadj = s.tadj := rfl
@[simp] theorem State.post_modid (n r : Nat) (e : Event) : (s.post n r e).modid = s.modid := rfl
@[simp] theorem State.post_ports (n r : Nat) (e : Event) : (s.post n r e).ports = s.ports := rfl
@[simp] theorem State.post_lostPorts (n r : Nat) (e : Event) : (s.post n r e).lostPorts = s.lostPorts := rfl
@[simp] theorem State.post_armed (n r : Nat) (e : Event) : (s.post n r e).armed = s.armed := rfl
@[simp] theorem State.post_domain (n r : Nat) (e : Event) : (s.post n r e).domain = s.domain := rfl
@[simp] theorem State.post_interval (n r : Nat) (e : Event) : (s.post n r e).interval = s.interval := rfl
@[simp] theorem State.post_intervalAt (n r : Nat) (e : Event) : (s.post n r e).intervalAt = s.intervalAt := rfl
@[simp] theorem State.post_circuits (n r : Nat) (e : Event) : (s.post n r e).circuits = s.circuits := rfl
@[simp] theorem State.post_reports (n r : Nat) (e : Event) : (s.post n r e).reports = s.reports := rfl
@[simp] theorem State.post_serving (n r : Nat) (e : Event) : (s.post n r e).serving = s.serving := rfl
@[simp] theorem State.post_guard_ (n r : Nat) (e : Event) : (s.post n r e).guard_ = s.guard_ := rfl
@[simp] theorem State.post_spares (n r : Nat) (e : Event) : (s.post n r e).spares = s.spares := rfl
@[simp] theorem State.post_rebuilds (n r : Nat) (e : Event) : (s.post n r e).rebuilds = s.rebuilds := rfl
@[simp] theorem State.post_jobRanks (n r : Nat) (e : Event) : (s.post n r e).jobRanks = s.jobRanks := rfl
@[simp] theorem State.post_jobPlanes (n r : Nat) (e : Event) : (s.post n r e).jobPlanes = s.jobPlanes := rfl
@[simp] theorem State.post_jobUses (n r : Nat) (e : Event) : (s.post n r e).jobUses = s.jobUses := rfl
@[simp] theorem State.post_lostSpares (n r : Nat) (e : Event) : (s.post n r e).lostSpares = s.lostSpares := rfl
@[simp] theorem State.post_jobMaps (n r : Nat) (e : Event) : (s.post n r e).jobMaps = s.jobMaps := rfl
@[simp] theorem State.post_images (n r : Nat) (e : Event) : (s.post n r e).images = s.images := rfl
@[simp] theorem State.post_served (n r : Nat) (e : Event) : (s.post n r e).served = s.served := rfl
@[simp] theorem State.post_manifests (n r : Nat) (e : Event) : (s.post n r e).manifests = s.manifests := rfl
@[simp] theorem State.post_lease (n r : Nat) (e : Event) : (s.post n r e).lease = s.lease := rfl
@[simp] theorem State.post_boot (n r : Nat) (e : Event) : (s.post n r e).boot = s.boot := rfl
@[simp] theorem State.post_nohist (n r : Nat) (e : Event) : (s.post n r e).nohist = s.nohist := rfl
@[simp] theorem State.post_mgmt (n r : Nat) (e : Event) : (s.post n r e).mgmt = s.mgmt := rfl
@[simp] theorem State.post_firmware (n r : Nat) (e : Event) : (s.post n r e).firmware = s.firmware := rfl
@[simp] theorem State.post_identity (n r : Nat) (e : Event) : (s.post n r e).identity = s.identity := rfl

/-! ## `draw` -/

@[simp] theorem State.draw_now : s.draw.now = s.now := rfl
@[simp] theorem State.draw_tickOn : s.draw.tickOn = s.tickOn := rfl
@[simp] theorem State.draw_tickOff : s.draw.tickOff = s.tickOff := rfl
@[simp] theorem State.draw_latch : s.draw.latch = s.latch := rfl
@[simp] theorem State.draw_agenda : s.draw.agenda = s.agenda := rfl
@[simp] theorem State.draw_order : s.draw.order = s.order := rfl
@[simp] theorem State.draw_free : s.draw.free = s.free + 1 := rfl
@[simp] theorem State.draw_hartAt : s.draw.hartAt = s.hartAt := rfl
@[simp] theorem State.draw_cores : s.draw.cores = s.cores := rfl
@[simp] theorem State.draw_tiles : s.draw.tiles = s.tiles := rfl
@[simp] theorem State.draw_parts : s.draw.parts = s.parts := rfl
@[simp] theorem State.draw_links : s.draw.links = s.links := rfl
@[simp] theorem State.draw_waiting : s.draw.waiting = s.waiting := rfl
@[simp] theorem State.draw_mreds : s.draw.mreds = s.mreds := rfl
@[simp] theorem State.draw_handles : s.draw.handles = s.handles := rfl
@[simp] theorem State.draw_handleRegs : s.draw.handleRegs = s.handleRegs := rfl
@[simp] theorem State.draw_handleBusy : s.draw.handleBusy = s.handleBusy := rfl
@[simp] theorem State.draw_tlbs : s.draw.tlbs = s.tlbs := rfl
@[simp] theorem State.draw_tierPoison : s.draw.tierPoison = s.tierPoison := rfl
@[simp] theorem State.draw_rowSpares : s.draw.rowSpares = s.rowSpares := rfl
@[simp] theorem State.draw_cardSpares : s.draw.cardSpares = s.cardSpares := rfl
@[simp] theorem State.draw_rowDraw : s.draw.rowDraw = s.rowDraw := rfl
@[simp] theorem State.draw_cardBusy : s.draw.cardBusy = s.cardBusy := rfl
@[simp] theorem State.draw_cardRetries : s.draw.cardRetries = s.cardRetries := rfl
@[simp] theorem State.draw_colls : s.draw.colls = s.colls := rfl
@[simp] theorem State.draw_nextColl : s.draw.nextColl = s.nextColl := rfl
@[simp] theorem State.draw_parity : s.draw.parity = s.parity := rfl
@[simp] theorem State.draw_queues : s.draw.queues = s.queues := rfl
@[simp] theorem State.draw_tokens : s.draw.tokens = s.tokens := rfl
@[simp] theorem State.draw_tier : s.draw.tier = s.tier := rfl
@[simp] theorem State.draw_hostMem : s.draw.hostMem = s.hostMem := rfl
@[simp] theorem State.draw_pages : s.draw.pages = s.pages := rfl
@[simp] theorem State.draw_mapver : s.draw.mapver = s.mapver := rfl
@[simp] theorem State.draw_spareRow : s.draw.spareRow = s.spareRow := rfl
@[simp] theorem State.draw_deadMask : s.draw.deadMask = s.deadMask := rfl
@[simp] theorem State.draw_shifts : s.draw.shifts = s.shifts := rfl
@[simp] theorem State.draw_zones : s.draw.zones = s.zones := rfl
@[simp] theorem State.draw_lateDead : s.draw.lateDead = s.lateDead := rfl
@[simp] theorem State.draw_deadFields : s.draw.deadFields = s.deadFields := rfl
@[simp] theorem State.draw_lost : s.draw.lost = s.lost := rfl
@[simp] theorem State.draw_topver : s.draw.topver = s.topver := rfl
@[simp] theorem State.draw_drift : s.draw.drift = s.drift := rfl
@[simp] theorem State.draw_adj : s.draw.adj = s.adj := rfl
@[simp] theorem State.draw_adjAt : s.draw.adjAt = s.adjAt := rfl
@[simp] theorem State.draw_tadj : s.draw.tadj = s.tadj := rfl
@[simp] theorem State.draw_modid : s.draw.modid = s.modid := rfl
@[simp] theorem State.draw_ports : s.draw.ports = s.ports := rfl
@[simp] theorem State.draw_lostPorts : s.draw.lostPorts = s.lostPorts := rfl
@[simp] theorem State.draw_armed : s.draw.armed = s.armed := rfl
@[simp] theorem State.draw_domain : s.draw.domain = s.domain := rfl
@[simp] theorem State.draw_interval : s.draw.interval = s.interval := rfl
@[simp] theorem State.draw_intervalAt : s.draw.intervalAt = s.intervalAt := rfl
@[simp] theorem State.draw_circuits : s.draw.circuits = s.circuits := rfl
@[simp] theorem State.draw_reports : s.draw.reports = s.reports := rfl
@[simp] theorem State.draw_serving : s.draw.serving = s.serving := rfl
@[simp] theorem State.draw_guard_ : s.draw.guard_ = s.guard_ := rfl
@[simp] theorem State.draw_spares : s.draw.spares = s.spares := rfl
@[simp] theorem State.draw_rebuilds : s.draw.rebuilds = s.rebuilds := rfl
@[simp] theorem State.draw_jobRanks : s.draw.jobRanks = s.jobRanks := rfl
@[simp] theorem State.draw_jobPlanes : s.draw.jobPlanes = s.jobPlanes := rfl
@[simp] theorem State.draw_jobUses : s.draw.jobUses = s.jobUses := rfl
@[simp] theorem State.draw_lostSpares : s.draw.lostSpares = s.lostSpares := rfl
@[simp] theorem State.draw_jobMaps : s.draw.jobMaps = s.jobMaps := rfl
@[simp] theorem State.draw_images : s.draw.images = s.images := rfl
@[simp] theorem State.draw_served : s.draw.served = s.served := rfl
@[simp] theorem State.draw_manifests : s.draw.manifests = s.manifests := rfl
@[simp] theorem State.draw_lease : s.draw.lease = s.lease := rfl
@[simp] theorem State.draw_boot : s.draw.boot = s.boot := rfl
@[simp] theorem State.draw_nohist : s.draw.nohist = s.nohist := rfl
@[simp] theorem State.draw_mgmt : s.draw.mgmt = s.mgmt := rfl
@[simp] theorem State.draw_firmware : s.draw.firmware = s.firmware := rfl
@[simp] theorem State.draw_identity : s.draw.identity = s.identity := rfl

/-! ## Units by number -/

@[simp] theorem State.onCore_eq (c : Nat) (f : Core → Core) : s.onCore c f = s.setCore c (f (s.core c)) := rfl
@[simp] theorem State.onTile_eq (t : Nat) (f : Tile → Tile) : s.onTile t f = s.setTile t (f (s.tile t)) := rfl
@[simp] theorem State.onPart_eq (p : Nat) (f : Part → Part) : s.onPart p f = s.setPart p (f (s.part p)) := rfl
@[simp] theorem State.onQueue_eq (q : Nat) (f : Queue → Queue) : s.onQueue q f = s.setQueue q (f (s.queue q)) := rfl

@[simp] theorem State.setTile_core (t : Nat) (x : Tile) (m : Nat) : (s.setTile t x).core m = s.core m := rfl
@[simp] theorem State.setPart_core (p : Nat) (x : Part) (m : Nat) : (s.setPart p x).core m = s.core m := rfl
@[simp] theorem State.setQueue_core (q : Nat) (x : Queue) (m : Nat) : (s.setQueue q x).core m = s.core m := rfl
@[simp] theorem State.postKey_core (n r k : Nat) (e : Event) (m : Nat) : (s.postKey n r k e).core m = s.core m := rfl
@[simp] theorem State.post_core (n r : Nat) (e : Event) (m : Nat) : (s.post n r e).core m = s.core m := rfl
@[simp] theorem State.draw_core (m : Nat) : (s.draw ).core m = s.core m := rfl
@[simp] theorem State.setCore_tile (c : Nat) (x : Core) (m : Nat) : (s.setCore c x).tile m = s.tile m := rfl
@[simp] theorem State.setPart_tile (p : Nat) (x : Part) (m : Nat) : (s.setPart p x).tile m = s.tile m := rfl
@[simp] theorem State.setQueue_tile (q : Nat) (x : Queue) (m : Nat) : (s.setQueue q x).tile m = s.tile m := rfl
@[simp] theorem State.postKey_tile (n r k : Nat) (e : Event) (m : Nat) : (s.postKey n r k e).tile m = s.tile m := rfl
@[simp] theorem State.post_tile (n r : Nat) (e : Event) (m : Nat) : (s.post n r e).tile m = s.tile m := rfl
@[simp] theorem State.draw_tile (m : Nat) : (s.draw ).tile m = s.tile m := rfl
@[simp] theorem State.setCore_part (c : Nat) (x : Core) (m : Nat) : (s.setCore c x).part m = s.part m := rfl
@[simp] theorem State.setTile_part (t : Nat) (x : Tile) (m : Nat) : (s.setTile t x).part m = s.part m := rfl
@[simp] theorem State.setQueue_part (q : Nat) (x : Queue) (m : Nat) : (s.setQueue q x).part m = s.part m := rfl
@[simp] theorem State.postKey_part (n r k : Nat) (e : Event) (m : Nat) : (s.postKey n r k e).part m = s.part m := rfl
@[simp] theorem State.post_part (n r : Nat) (e : Event) (m : Nat) : (s.post n r e).part m = s.part m := rfl
@[simp] theorem State.draw_part (m : Nat) : (s.draw ).part m = s.part m := rfl
@[simp] theorem State.setCore_queue (c : Nat) (x : Core) (m : Nat) : (s.setCore c x).queue m = s.queue m := rfl
@[simp] theorem State.setTile_queue (t : Nat) (x : Tile) (m : Nat) : (s.setTile t x).queue m = s.queue m := rfl
@[simp] theorem State.setPart_queue (p : Nat) (x : Part) (m : Nat) : (s.setPart p x).queue m = s.queue m := rfl
@[simp] theorem State.postKey_queue (n r k : Nat) (e : Event) (m : Nat) : (s.postKey n r k e).queue m = s.queue m := rfl
@[simp] theorem State.post_queue (n r : Nat) (e : Event) (m : Nat) : (s.post n r e).queue m = s.queue m := rfl
@[simp] theorem State.draw_queue (m : Nat) : (s.draw ).queue m = s.queue m := rfl

/-- A core reads back as it was set, in a table in canonical form. -/
theorem State.core_setCore_same (c : Nat) (x : Core) (h : Table.rising s.cores = true) : (s.setCore c x).core c = x :=
  Table.get_set_same Core.idle s.cores c x h
theorem State.core_setCore_ne (c d : Nat) (x : Core) (h : Table.rising s.cores = true) (hd : d ≠ c) : (s.setCore c x).core d = s.core d :=
  Table.get_set_ne Core.idle s.cores c d x h hd
theorem State.tile_setTile_same (t : Nat) (x : Tile) (h : Table.rising s.tiles = true) : (s.setTile t x).tile t = x :=
  Table.get_set_same Tile.idle s.tiles t x h
theorem State.tile_setTile_ne (t u : Nat) (x : Tile) (h : Table.rising s.tiles = true) (hu : u ≠ t) : (s.setTile t x).tile u = s.tile u :=
  Table.get_set_ne Tile.idle s.tiles t u x h hu
theorem State.part_setPart_same (p : Nat) (x : Part) (h : Table.rising s.parts = true) : (s.setPart p x).part p = x :=
  Table.get_set_same Part.none s.parts p x h
theorem State.part_setPart_ne (p q : Nat) (x : Part) (h : Table.rising s.parts = true) (hq : q ≠ p) : (s.setPart p x).part q = s.part q :=
  Table.get_set_ne Part.none s.parts p q x h hq
theorem State.queue_setQueue_same (q : Nat) (x : Queue) (h : Table.rising s.queues = true) : (s.setQueue q x).queue q = x :=
  Table.get_set_same Queue.reset s.queues q x h
theorem State.queue_setQueue_ne (q r : Nat) (x : Queue) (h : Table.rising s.queues = true) (hr : r ≠ q) : (s.setQueue q x).queue r = s.queue r :=
  Table.get_set_ne Queue.reset s.queues q r x h hr

end Sys2Proof.Machine
end

