-- ==== Sys2Proof/Laws/Ops.lean ====
section
/-! SUPPORT. What the shared operations of the slots do, each said once: a write in flight, flags, a vector result, a precise trap. -/

namespace Sys2Proof.Machine

open Claims

/-! ## The agenda -/

theorem insertEv_self (e : Ev) (l : List Ev) : e ∈ insertEv e l := by
  induction l with
  | nil => simp [insertEv]
  | cons x r ih => simp only [insertEv]; split <;> simp [ih]

theorem insertEv_mem (e x : Ev) (l : List Ev) (h : x ∈ l) : x ∈ insertEv e l := by
  induction l with
  | nil => simp at h
  | cons y r ih =>
    simp only [insertEv]
    split
    · rcases List.mem_cons.1 h with h | h
      · rw [h]; exact List.mem_cons_self
      · exact List.mem_cons_of_mem _ (ih h)
    · exact List.mem_cons_of_mem _ h

/-- A step that is posted is on the agenda. -/
theorem State.post_mem (s : State) (n r : Nat) (e : Event) :
    ({ at_ := n, rank := r, key := s.order, ev := e } : Ev) ∈ (s.post n r e).agenda := insertEv_self _ _

/-! ## The issuing core -/

theorem cores_rising {s : State} (h : Issuing s) : Table.rising s.cores = true := ((Table.wf_iff _ _).1 h.table).1

/-- A state whose only difference is the issuing core's entry, the latch, the agenda and the order. -/
def State.withMe (s : State) (x : Core) (l : Latch) (ag : List Ev) (n : Nat) : State :=
  { s with latch := l, agenda := ag, order := n, cores := Table.set Core.idle s.cores s.latch.core x }

theorem State.withMe_me (s : State) (x : Core) (l : Latch) (ag : List Ev) (n : Nat) (h : Issuing s) (hl : l.core = s.latch.core) :
    (s.withMe x l ag n).me = x := by
  show Table.get Core.idle (Table.set Core.idle s.cores s.latch.core x) l.core = x
  rw [hl]
  exact Table.get_set_same _ _ _ _ (cores_rising h)

/-! ## A write in flight (R22, R23) -/

/-- What the write of a register that is no zero register adds: one flight and its landing. -/
theorem State.fly_eq (s : State) (prio lat : Nat) (r : RegId) (v : Vec) (hr : r.zero = false) :
    s.fly s.latch.core prio lat r v =
      s.withMe { s.me with regs := { s.me.regs with flights := s.me.regs.flights ++ [flight s prio lat r v] } } s.latch
        (insertEv { at_ := s.now + lat, rank := rankLand, key := s.order, ev := .resultLanding s.latch.core } s.agenda)
        (s.order + 1) := by
  unfold State.fly
  rw [if_neg (by simp [hr])]
  rfl

/-- The write of a register: nothing for a zero register, else one flight that lands after its latency; nothing else changes. -/
theorem State.fly_writes (s : State) (prio lat : Nat) (r : RegId) (v : Vec) (h : Issuing s) :
    Writes s (s.fly s.latch.core prio lat r v) prio lat r v := by
  unfold Writes
  by_cases hr : r.zero = true
  · rw [if_pos hr]
    unfold State.fly
    rw [if_pos hr]
  · rw [if_neg hr, State.fly_eq s prio lat r v (by simpa using hr)]
    refine ⟨⟨s.me.regs.flights ++ [flight s prio lat r v], s.me.pending, s.latch, _, _, rfl⟩, ⟨?_, ?_⟩, ?_, rfl⟩
    · rw [State.withMe_me _ _ _ _ _ h rfl]
    · intro f hf
      rw [List.mem_singleton.1 hf]
      exact ⟨_, insertEv_self _ _, rfl, rfl⟩
    · rw [State.withMe_me _ _ _ _ _ h rfl]

theorem State.write_writes (s : State) (lat : Nat) (r : RegId) (v : Vec) (h : Issuing s) : Writes s (s.write lat r v) 0 lat r v :=
  State.fly_writes s 0 lat r v h

/-- A write in flight keeps the table of the cores in canonical form, and the bundle issues on. -/
theorem State.fly_issuing (s : State) (c prio lat : Nat) (r : RegId) (v : Vec) (h : Issuing s) : Issuing (s.fly c prio lat r v) := by
  by_cases hr : r.zero = true
  · unfold State.fly
    rw [if_pos hr]
    exact h
  · unfold State.fly
    rw [if_neg hr]
    exact ⟨h.active, Table.wf_set Core.idle s.cores c _ h.table⟩

/-! ## Units by number -/

section
variable {s : State}

theorem State.core_setCore (h : Table.wf Core.idle s.cores = true) (c d : Nat) (x : Core) :
    (s.setCore c x).core d = if d = c then x else s.core d := by
  have hr := ((Table.wf_iff _ _).1 h).1
  split
  · next e => rw [e]; exact Table.get_set_same _ _ _ _ hr
  · next e => exact Table.get_set_ne _ _ _ _ _ hr e

theorem State.tile_setTile (h : Table.wf Tile.idle s.tiles = true) (c d : Nat) (x : Tile) :
    (s.setTile c x).tile d = if d = c then x else s.tile d := by
  have hr := ((Table.wf_iff _ _).1 h).1
  split
  · next e => rw [e]; exact Table.get_set_same _ _ _ _ hr
  · next e => exact Table.get_set_ne _ _ _ _ _ hr e

theorem State.part_setPart (h : Table.wf Machine.Part.none s.parts = true) (c d : Nat) (x : Machine.Part) :
    (s.setPart c x).part d = if d = c then x else s.part d := by
  have hr := ((Table.wf_iff _ _).1 h).1
  split
  · next e => rw [e]; exact Table.get_set_same _ _ _ _ hr
  · next e => exact Table.get_set_ne _ _ _ _ _ hr e

theorem State.queue_setQueue (h : Table.wf Queue.reset s.queues = true) (c d : Nat) (x : Queue) :
    (s.setQueue c x).queue d = if d = c then x else s.queue d := by
  have hr := ((Table.wf_iff _ _).1 h).1
  split
  · next e => rw [e]; exact Table.get_set_same _ _ _ _ hr
  · next e => exact Table.get_set_ne _ _ _ _ _ hr e

end

/-! ## Causes and effects (R64, R348) -/

@[simp] theorem State.attempt_none (s : State) (f : State → State) : s.attempt none f = .next (f s) := rfl

@[simp] theorem State.attempt_some (s : State) (t : TrapInfo) (f : State → State) : s.attempt (some t) f = .next (s.trapNow t) := rfl

/-- Taking a trap in program mode, but for cause 0x18, enters the handler (R349). -/
theorem State.takeTrap_enters (s : State) (c : Nat) (a : CodeAddr) (t : TrapInfo) (h : (s.core c).hm = false) (hc : t.cause ≠ 0x18) :
    s.takeTrap c a t = s.enterHandler c a t t.cause := by
  simp [State.takeTrap, State.takeTrapAs, h, hc]

/-- Entering a handler writes the trap state, sets handler mode and schedules the entry; no register, byte or other core changes. -/
theorem State.enterHandler_entered (s : State) (c : Nat) (a : CodeAddr) (t : TrapInfo) (e : Nat)
    (h : Table.wf Core.idle s.cores = true) : Entered s (s.enterHandler c a t e) c a t := by
  obtain ⟨s1, hs1⟩ : ∃ s1, s1 = s.closeSegment c := ⟨_, rfl⟩
  have hcl : Table.wf Core.idle s1.cores = true ∧ (s1.core c).regs = (s.core c).regs ∧ (∀ d, d ≠ c → s1.core d = s.core d) ∧ SameBytes s s1 := by
    subst hs1
    unfold State.closeSegment
    split
    · exact ⟨h, rfl, fun _ _ => rfl, ⟨fun _ _ => ⟨rfl, rfl, rfl, rfl⟩, fun _ => rfl, fun _ => rfl⟩⟩
    · have hc := fun d => State.core_setCore h c d { s.core c with segOpen := none }
      refine ⟨Table.wf_set _ _ _ _ h, ?_, fun d hd => ?_, ⟨fun _ _ => ⟨rfl, rfl, rfl, rfl⟩, fun _ => rfl, fun _ => rfl⟩⟩
      · show ((s.setCore c { s.core c with segOpen := none }).core c).regs = _
        rw [hc, if_pos rfl]
      · show (s.setCore c { s.core c with segOpen := none }).core d = _
        rw [hc, if_neg hd]
  obtain ⟨hw, hr, ho, hb⟩ := hcl
  have key : ∀ x : Core, x.hm = true → TrapState x.regs a t → sameRegisters x.regs (s.core c).regs →
      Entered s ((s1.setCore c x).post (s.now + 16) rankIssue (.handlerEntry c ((s1.setCore c x).core c).gen)) c a t := by
    intro x h1 h2 h3
    have hc := fun d => State.core_setCore hw c d x
    have hx : ((s1.setCore c x).post (s.now + 16) rankIssue (.handlerEntry c ((s1.setCore c x).core c).gen)).core c = x := by
      show (s1.setCore c x).core c = x
      rw [hc, if_pos rfl]
    refine ⟨?_, ?_, hb, ?_, fun d hd => ?_, ?_⟩
    · rw [hx]; exact h2
    · rw [hx]; exact h1
    · rw [hx]; exact h3
    · show (s1.setCore c x).core d = s.core d
      rw [hc, if_neg hd, ho d hd]
    · refine ⟨_, State.post_mem _ _ _ _, rfl, rfl, ?_⟩
      rw [hx, hc, if_pos rfl]
  unfold State.enterHandler
  rw [← hs1]
  refine key _ ?_ ?_ ?_
  · rfl
  · exact ⟨rfl, rfl, rfl, rfl, rfl, rfl⟩
  · show sameRegisters { (s1.core c).regs.trapped a t with exts := [], xfer := none } (s.core c).regs
    rw [hr]
    exact ⟨rfl, rfl, rfl, rfl, rfl, rfl, rfl, rfl, rfl, rfl, rfl, rfl, rfl, rfl, rfl, rfl, rfl, rfl, rfl, rfl, rfl, rfl⟩

end Sys2Proof.Machine
end

