-- ==== Sys2Proof/Laws/Whole.lean ====
section
/-! SUPPORT. The canonical form of the whole machine: a check of a concrete state, and what each update asks to keep it. -/

namespace Sys2Proof.Machine

open Claims

/-! ## A check of a concrete state -/

def regsCheck (r : Regs) : Bool := Table.wf 0 r.k && Table.wf 0 r.a && Table.wf 0 r.x && Table.wf 0 r.v && Table.wf 0 r.w

def coreCheck (x : Core) : Bool :=
  regsCheck x.regs && (x.snaps.all fun e => regsCheck e.2.regs) && (match x.relSnap with | none => true | some n => regsCheck n.regs) &&
    (match x.before with | none => true | some u => regsCheck u.regs)

def tileCheck (x : Tile) : Bool :=
  Memory.wf x.store && Memory.wf x.om && Memory.wf x.acc0 && Memory.wf x.acc1 && Table.wf SlotState.free x.slots &&
    Table.wf Engine.reset x.engines && Table.wf Chan.reset x.chans && Table.wf QuayQueue.reset x.quays && Table.wf [] x.tokens &&
    (x.chans.all fun e => Table.wf [] e.2.merges) && Table.wf OptChan.reset x.opts && Table.wf 0 x.wroteAt

def partCheck (p : Part) : Bool :=
  Table.wf Phaser.reset p.phasers && p.phasers.all fun e => Table.wf Member.none e.2.members && Table.wf none e.2.arrivals

/-- Everything that `Whole` asks, as one Boolean over what is listed. -/
def wholeCheck (s : State) : Bool :=
  Table.wf Core.idle s.cores && Table.wf Tile.idle s.tiles && Table.wf Part.none s.parts && Table.wf Queue.reset s.queues &&
  Table.wf 0 s.links && Table.wf Mred.none s.mreds && Table.wf Handle.reset s.handles && Table.wf Coll.none s.colls &&
  Table.wf 0 s.tokens && Table.wf 0 s.pages && Table.wf Tlb.reset s.tlbs && Table.wf 0 s.handleRegs && Table.wf 0 s.mgmt &&
  Table.wf Option.none s.shifts && Table.wf Option.none s.zones && Table.wf 0 s.deadMask && Table.wf 5 s.spareRow &&
  Table.wf Port.reset s.ports && Table.wf 0 s.waiting && Table.wf 0 s.handleBusy && Table.wf 0 s.cardBusy && Table.wf 0 s.cardRetries &&
  Table.wf 0 s.rowSpares && Table.wf 0 s.cardSpares && Table.wf 0 s.lateDead && Memory.wf s.tier && Memory.wf s.hostMem &&
  (s.tiles.all fun e => tileCheck e.2) && (s.parts.all fun e => partCheck e.2) && (s.cores.all fun e => coreCheck e.2)

theorem regsOk_of_check {r : Regs} (h : regsCheck r = true) : RegsOk r := by
  simp only [regsCheck, Bool.and_eq_true] at h
  exact ⟨h.1.1.1.1, h.1.1.1.2, h.1.1.2, h.1.2, h.2⟩

theorem coreOk_of_check {x : Core} (h : coreCheck x = true) : CoreOk x := by
  simp only [coreCheck, Bool.and_eq_true, List.all_eq_true] at h
  refine ⟨regsOk_of_check h.1.1.1, fun e he => regsOk_of_check (h.1.1.2 e he), fun n hn => ?_, fun u hu => ?_⟩
  · have h2 := h.1.2
    rw [hn] at h2
    exact regsOk_of_check h2
  · have h2 := h.2
    rw [hu] at h2
    exact regsOk_of_check h2

/-- What holds of the default and of every listed value holds of whatever a table reads as. -/
theorem Table.get_all {α : Type} {d : α} {t : Table α} {q : α → Prop} (hd : q d) (ht : ∀ e ∈ t, q e.2) (k : Nat) :
    q (Table.get d t k) := by
  rcases Table.get_mem d t k with h | h
  · rw [h]; exact hd
  · exact ht _ h

theorem tileOk_of_check {x : Tile} (h : tileCheck x = true) : TileOk x := by
  simp only [tileCheck, Bool.and_eq_true, List.all_eq_true] at h
  obtain ⟨⟨⟨⟨⟨⟨⟨⟨⟨⟨⟨h1, h2⟩, h3⟩, h4⟩, h5⟩, h6⟩, h7⟩, h8⟩, h9⟩, h10⟩, h11⟩, h12⟩ := h
  exact ⟨h1, h2, h3, h4, h5, h6, h7, h8, h9,
    Table.get_all (q := fun c : Chan => Table.wf [] c.merges = true) rfl h10, h11, h12⟩

theorem partOk_of_check {p : Part} (h : partCheck p = true) : PartOk p := by
  simp only [partCheck, Bool.and_eq_true, List.all_eq_true] at h
  exact ⟨h.1, Table.get_all (q := fun x : Phaser => Table.wf Member.none x.members = true) rfl fun e he => (h.2 e he).1,
    Table.get_all (q := fun x : Phaser => Table.wf none x.arrivals = true) rfl fun e he => (h.2 e he).2⟩

theorem tileOk_idle : TileOk Tile.idle := tileOk_of_check rfl
theorem partOk_none : PartOk Part.none := partOk_of_check rfl
theorem coreOk_idle : CoreOk Core.idle := coreOk_of_check rfl
theorem regsOk_start : RegsOk Regs.start := regsOk_of_check rfl

theorem whole_of_check {s : State} (h : wholeCheck s = true) : Whole s := by
  simp only [wholeCheck, Bool.and_eq_true, List.all_eq_true] at h
  obtain ⟨⟨⟨⟨⟨⟨⟨⟨⟨⟨⟨⟨⟨⟨⟨⟨⟨⟨⟨⟨⟨⟨⟨⟨⟨⟨⟨⟨⟨h1, h2⟩, h3⟩, h4⟩, h5⟩, h6⟩, h7⟩, h8⟩, h9⟩, h10⟩, h11⟩, h12⟩, h13⟩, h14⟩, h15⟩, h16⟩, h17⟩,
    h18⟩, h19⟩, h20⟩, h21⟩, h22⟩, h23⟩, h24⟩, h25⟩, h26⟩, h27⟩, h28⟩, h29⟩, h30⟩ := h
  exact { cores := h1, tiles := h2, parts := h3, queues := h4, links := h5, mreds := h6, handles := h7, colls := h8,
          tokens := h9, pages := h10, tlbs := h11, hregs := h12, mgmt := h13, shifts := h14, zones := h15, masks := h16,
          rows := h17, ports := h18, waiting := h19, hbusy := h20, busy := h21, retries := h22, inUse := h23, cards := h24,
          late := h25, tier := h26, hostMem := h27,
          tile := Table.get_all tileOk_idle fun e he => tileOk_of_check (h28 e he),
          part := Table.get_all partOk_none fun e he => partOk_of_check (h29 e he),
          core := Table.get_all coreOk_idle fun e he => coreOk_of_check (h30 e he) }

end Sys2Proof.Machine

namespace Sys2Proof.Claims

open Machine

/-! ## What the updates ask -/

variable {s : State}

theorem Whole.post (h : Whole s) (n r : Nat) (e : Event) : Whole (s.post n r e) := { h with }
theorem Whole.postKey (h : Whole s) (n r k : Nat) (e : Event) : Whole (s.postKey n r k e) := { h with }
theorem Whole.draw (h : Whole s) : Whole s.draw := { h with }
theorem Whole.latch (h : Whole s) (l : Latch) : Whole { s with latch := l } := { h with }
theorem Whole.agenda (h : Whole s) (a : List Ev) (n : Nat) : Whole { s with agenda := a, now := n } := { h with }
theorem Whole.suppress (h : Whole s) : Whole s.suppress := h.latch _

theorem Whole.setCore (h : Whole s) (c : Nat) (x : Core) (hx : CoreOk x) : Whole (s.setCore c x) :=
  { h with
    cores := Table.wf_set _ _ _ _ h.cores
    core := fun n => by
      by_cases hn : n = c
      · subst hn; rw [State.core_setCore_same _ _ _ ((Table.wf_iff _ _).1 h.cores).1]; exact hx
      · rw [State.core_setCore_ne _ _ _ _ ((Table.wf_iff _ _).1 h.cores).1 hn]; exact h.core n }

theorem Whole.onCore (h : Whole s) (c : Nat) (f : Core → Core) (hf : CoreOk (s.core c) → CoreOk (f (s.core c))) :
    Whole (s.onCore c f) := h.setCore c _ (hf (h.core c))

theorem Whole.setTile (h : Whole s) (n : Nat) (x : Tile) (hx : TileOk x) : Whole (s.setTile n x) :=
  { h with
    tiles := Table.wf_set _ _ _ _ h.tiles
    tile := fun m => by
      by_cases hm : m = n
      · subst hm; rw [State.tile_setTile_same _ _ _ ((Table.wf_iff _ _).1 h.tiles).1]; exact hx
      · rw [State.tile_setTile_ne _ _ _ _ ((Table.wf_iff _ _).1 h.tiles).1 hm]; exact h.tile m }

theorem Whole.onTile (h : Whole s) (n : Nat) (f : Tile → Tile) (hf : TileOk (s.tile n) → TileOk (f (s.tile n))) :
    Whole (s.onTile n f) := h.setTile n _ (hf (h.tile n))

theorem Whole.setPart (h : Whole s) (n : Nat) (x : Part) (hx : PartOk x) : Whole (s.setPart n x) :=
  { h with
    parts := Table.wf_set _ _ _ _ h.parts
    part := fun m => by
      by_cases hm : m = n
      · subst hm; rw [State.part_setPart_same _ _ _ ((Table.wf_iff _ _).1 h.parts).1]; exact hx
      · rw [State.part_setPart_ne _ _ _ _ ((Table.wf_iff _ _).1 h.parts).1 hm]; exact h.part m }

theorem Whole.setQueue (h : Whole s) (q : Nat) (x : Queue) : Whole (s.setQueue q x) :=
  { h with queues := Table.wf_set _ _ _ _ h.queues }

theorem Whole.onQueue (h : Whole s) (q : Nat) (f : Queue → Queue) : Whole (s.onQueue q f) := h.setQueue q _

/-- A fold of steps that each keep the canonical form keeps it. -/
theorem Whole.foldl {α : Type} (f : State → α → State) (hf : ∀ t a, Whole t → Whole (f t a)) (l : List α) :
    ∀ {t : State}, Whole t → Whole (l.foldl f t) := by
  induction l with
  | nil => exact fun h => h
  | cons a r ih => exact fun h => ih (hf _ a h)

/-! ## Registers and traps -/

theorem RegsOk.put {r : Regs} (h : RegsOk r) (d : RegId) (v : Vec) : RegsOk (r.put d v) := by
  cases d with
  | k n =>
    show RegsOk (if n = 0 then r else _)
    by_cases hn : n = 0
    · rw [if_pos hn]; exact h
    · rw [if_neg hn]; exact { h with k := Table.wf_set _ _ _ _ h.k }
  | a n =>
    show RegsOk (if n = 0 then r else _)
    by_cases hn : n = 0
    · rw [if_pos hn]; exact h
    · rw [if_neg hn]; exact { h with a := Table.wf_set _ _ _ _ h.a }
  | x n =>
    show RegsOk (if n = 0 then r else _)
    by_cases hn : n = 0
    · rw [if_pos hn]; exact h
    · rw [if_neg hn]; exact { h with x := Table.wf_set _ _ _ _ h.x }
  | v n => exact { h with v := Table.wf_set _ _ _ _ h.v }
  | w n => exact { h with w := Table.wf_set _ _ _ _ h.w }
  | p n =>
    show RegsOk (if n = 0 ∨ 15 < n then r else _)
    by_cases hn : n = 0 ∨ 15 < n
    · rw [if_pos hn]; exact h
    · rw [if_neg hn]; exact { h with }

theorem Whole.fly (h : Whole s) (c prio lat : Nat) (r : RegId) (v : Vec) : Whole (s.fly c prio lat r v) := by
  unfold State.fly
  by_cases hr : r.zero = true
  · simp only [hr, if_true]; exact h
  · simp only [hr, Bool.false_eq_true, if_false]
    exact (h.onCore _ _ fun hc => { hc with regs := { hc.regs with } }).post _ _ _

theorem Whole.write (h : Whole s) (lat : Nat) (r : RegId) (v : Vec) : Whole (s.write lat r v) := h.fly _ _ _ _ _

theorem Whole.raise (h : Whole s) (lat flags : Nat) : Whole (s.raise lat flags) := by
  unfold State.raise
  split
  · exact h
  · exact (h.onCore _ _ fun hc => { hc with regs := { hc.regs with } }).post _ _ _

theorem Whole.closeSegment (h : Whole s) (c : Nat) : Whole (s.closeSegment c) := by
  unfold State.closeSegment
  split
  · exact h
  · exact (h.onCore _ _ fun hc => { hc with }).post _ _ _

theorem Whole.enterHandler (h : Whole s) (c : Nat) (a : CodeAddr) (t : TrapInfo) (e : Nat) : Whole (s.enterHandler c a t e) := by
  unfold State.enterHandler
  exact ((h.closeSegment c).onCore _ _ fun hc => { hc with regs := { hc.regs with } }).post _ _ _

end Sys2Proof.Claims
end

