-- ==== Sys2Proof/Tests/Slice0.lean ====
section
/-! SUPPORT. Tests: ill-formed terms are refused, words of the spec's formats decode to their instructions, small steps give what the spec
gives, and for each statement a state and operands that meet its hypotheses. -/

namespace Sys2Proof.Tests

open Machine Claims

set_option Elab.async false

def partNone : Machine.Part := Machine.Part.none

/-! ## Small states -/

/-- A region of each KIND, and one of block bytes. -/
def regions : List Region :=
  [{ base := 0x1000, size := 2, ro := false, kind := 0, fmt := 0 }, { base := 0x4000, size := 1, ro := false, kind := 3, fmt := 0 },
   { base := 0x8000, size := 1, ro := false, kind := 0, fmt := 11 }, { base := 0xA000, size := 1, ro := true, kind := 0, fmt := 4 },
   { base := 0xC000, size := 1, ro := false, kind := 4, fmt := 0 }]

/-- Registers: k1 to k4 and x1 to x4 hold the four numbers, a1 to a3 the addresses 0x1FFF, 0x1FC0 and 0x8000, a4 holds 4. -/
def regsOf (n1 n2 n3 n4 : Word) : Regs :=
  { Regs.start with
    k := [(1, n1), (2, n2), (3, n3), (4, n4)].filter fun e => decide (e.2 ≠ 0)
    x := [(1, n1), (2, n2), (3, n3), (4, n4)].filter fun e => decide (e.2 ≠ 0)
    a := [(1, 0x1FFF), (2, 0x1FC0), (3, 0x8000), (4, 4), (5, 0x2FFF)] }

/-- A core of partition 1 in a phase. -/
def coreOf (phase : Nat) (r : Regs) : Core :=
  { Core.idle with status := .running, part := some 1, regions := regions, parkV := [], parkW := [630], regs := r, phase := phase }

/-- A partition of one sheaf that may use ph1 and ph63. -/
def partOf1 : Machine.Part :=
  { partNone with status := .running, width := 1, height := 1, t0 := 100,
                   hdr := { Header256.zero with width := 1, height := 1, phmask := 0x8000000000000002 } }

/-- A bundle at 0x20 of core `c` whose slot `sl` runs. -/
def bundle (c : Nat) (sl : Slot) : Latch := { Latch.none with active := true, core := c, addr := 0x20, slot := sl, word := 0x77, seq := 9 }

/-- Core `c` issues slot `sl` on tile `x` at cycle 1000. -/
def stateOf (c : Nat) (sl : Slot) (k : Core) (x : Tile) (p : Part) : State :=
  { State.reset with boot := 5, tickOn := true, now := 1000, latch := bundle c sl, cores := [(c, k)],
                     tiles := Table.set Tile.idle [] (c / 2) x, parts := [(1, p)] }

/-- The usual one: core 0 in a phase with the four numbers. -/
def usual (sl : Slot) (phase : Nat) (n1 n2 n3 n4 : Word) : State :=
  stateOf 0 sl (coreOf phase (regsOf n1 n2 n3 n4)) Tile.idle partOf1

/-- It with the core changed, or the tile, or the partition. -/
def withCore (s : State) (f : Core → Core) : State := s.onCore s.latch.core f
def withTile (s : State) (f : Tile → Tile) : State := s.onTile (s.latch.core / 2) f
def withPart (s : State) (f : Part → Part) : State := s.setPart 1 (f (s.part 1))

theorem issuing_of (s : State) (h : s.latch.active = true ∧ Table.wf Core.idle s.cores = true) : Issuing s := ⟨h.1, h.2⟩
theorem live_of (s : State) (h : s.latch.active = true ∧ wholeCheck s = true) : Live s := ⟨h.1, whole_of_check h.2⟩

/-! ## States and operands that meet the hypotheses of the statements: the K slot -/

theorem test_meets_ScalarResults :
    (kResult? (.add 31 1 2) (usual .k 0 5 7 0 0)).isSome = true ∧ Issuing (usual .k 0 5 7 0 0) :=
  ⟨by decide +kernel, issuing_of _ (by decide +kernel)⟩

theorem test_meets_DivisionForms :
    (Issuing (usual .k 1 0x8000000000000000 0xFFFFFFFFFFFFFFFF 0 7) ∧
      ((usual .k 1 0x8000000000000000 0xFFFFFFFFFFFFFFFF 0 7).k 1).toInt = -2 ^ 63 ∧
      ((usual .k 1 0x8000000000000000 0xFFFFFFFFFFFFFFFF 0 7).k 2).toInt = -1 ∧
      (usual .k 1 0x8000000000000000 0xFFFFFFFFFFFFFFFF 0 7).k 3 = 0) ∧
    ((usual .k 1 0x8000000000000000 0xFFFFFFFFFFFFFFFF 0 7).k 4 ≠ 0 ∧
      ((usual .k 1 0x8000000000000000 0xFFFFFFFFFFFFFFFF 0 7).k 4).toInt ≠ -1) :=
  ⟨⟨issuing_of _ (by decide +kernel), by decide +kernel⟩, by decide +kernel⟩

theorem test_meets_PredicateResults :
    (pResult? (.pand 15 0 1) (usual .k 0 5 7 0 0)).isSome = true ∧ Issuing (usual .k 0 5 7 0 0) :=
  ⟨by decide +kernel, issuing_of _ (by decide +kernel)⟩

theorem test_meets_TransfersOfControl :
    Issuing (usual .k 0 5 7 0 0) ∧ (usual .k 0 5 7 0 0).latch.follow = none ∧ NoShadow (usual .k 0 5 7 0 0) :=
  ⟨issuing_of _ (by decide +kernel), rfl, rfl⟩

/-- A core with `n` levels on its loop stack. -/
def deep (n : Nat) : State :=
  withCore (usual .k 0 5 0 0 0) fun x => { x with regs := { x.regs with loops := List.replicate n { start := 0x10, count := 2, index := 3 } } }

theorem test_meets_LoopForms :
    (Issuing (deep 5) ∧ NoShadow (deep 5) ∧ ((deep 5).k 2).setWidth 32 = 0#32 ∧ ((deep 5).k 1).setWidth 32 ≠ 0#32 ∧ depth (deep 5) = 5 ∧
      (deep 5).me.regs.loops[(4 : BitVec 4).toNat]?.isSome = true ∧ depth (deep 5) ≤ (5 : BitVec 4).toNat) ∧
    (Issuing (deep 6) ∧ NoShadow (deep 6) ∧ 6 ≤ depth (deep 6)) ∧
    (Issuing (deep 0) ∧ depth (deep 0) = 0) ∧
    (Issuing { deep 1 with latch := { (deep 1).latch with shadow := some { target := 0x40, origin := 0x18 } } } ∧ 0 < depth (deep 1)) :=
  ⟨⟨issuing_of _ (by decide +kernel), rfl, by decide +kernel⟩, ⟨issuing_of _ (by decide +kernel), rfl, by decide +kernel⟩,
    ⟨issuing_of _ (by decide +kernel), by decide +kernel⟩, ⟨issuing_of _ (by decide +kernel), by decide +kernel⟩⟩

theorem test_meets_PassesOfALoop :
    (∃ (r : Regs) (l : Loop) (ls : List Loop), r.loops = l :: ls ∧ l.count.toNat = 2) ∧
    (∃ (r : Regs) (l : Loop) (ls : List Loop), r.loops = l :: ls ∧ l.count.toNat = 1 ∧ r.epicnt.toNat = 1) ∧
    ∃ (r : Regs) (l : Loop) (ls : List Loop), r.loops = l :: ls ∧ l.count.toNat = 1 ∧ r.epicnt = 0 :=
  ⟨⟨{ Regs.start with loops := [{ start := 0, count := 2, index := 0 }] }, _, _, rfl, rfl⟩,
    ⟨{ Regs.start with loops := [{ start := 0, count := 1, index := 0 }], epicnt := 1 }, _, _, rfl, rfl, rfl⟩,
    ⟨{ Regs.start with loops := [{ start := 0, count := 1, index := 0 }] }, _, _, rfl, rfl, rfl⟩⟩

/-- The last slot of core 0's bundle has run, in a loop of which `n` passes are left. -/
def closing (n epi : Nat) (f : Latch → Latch) : State :=
  { withCore (usual .k 0 5 7 0 0) fun x => { x with regs := { x.regs with
      loops := [{ start := 0x10, count := BitVec.ofNat 32 n, index := 3 }], epicnt := BitVec.ofNat 16 epi } } with
    latch := f (bundle 0 .k) }

/-- The level that it closes. -/
def closed (n : Nat) : Loop := { start := 0x10, count := BitVec.ofNat 32 n, index := 3 }

/-- The lead of a gang of four. -/
def leading : State := withCore (closing 2 0 id) fun x => { x with gsize := 1 }

def looping (rt : Bool) (l : Latch) : Latch := { l with le := true, rt := rt }

theorem test_meets_PassesOfALoop_ends :
    (Whole (closing 2 0 id) ∧ (closing 2 0 id).latch.active = true ∧ (closing 2 0 id).latch.todo = [] ∧ (closing 2 0 id).latch.core = 0 ∧
      ((closing 2 0 id).tile 0).errors = [] ∧ (closing 2 0 id).latch.follow = none ∧ (closing 2 0 id).latch.ended = false ∧
      (closing 2 0 id).latch.tret = none ∧ (closing 2 0 id).latch.waits = []) ∧
    ((closing 2 0 fun l => { l with ended := true }).latch.ended = true ∧
      (closing 2 0 fun l => { l with tret := some true }).latch.tret.isSome = true ∧
      (closing 2 0 fun l => { l with follow := some (.run 0x20 true [closed 2] .none 0x30 none) }).latch.follow =
        some (.run 0x20 true [closed 2] .none 0x30 none)) ∧
    (BodyPass (closing 2 0 (looping true)) (closed 2) ∧ StageAdvances (closing 2 0 (looping true)) true) ∧
    (DrainPass (closing 1 1 (looping true)) (closed 1) ∧ StageAdvances (closing 1 1 (looping true)) false) ∧
    (LoopEnds (closing 1 0 (looping false)) ∧ (closing 1 0 (looping false)).me.regs.loops = closed 1 :: [] ∧
      ¬ BodyPass (closing 1 0 (looping false)) (closed 1) ∧ ¬ DrainPass (closing 1 0 (looping false)) (closed 1)) ∧
    (¬ LoopEnds (closing 2 0 id) ∧ (closing 2 0 fun l => { l with loops := .push (closed 5) }).latch.loops = .push (closed 5) ∧
      (closing 2 0 fun l => { l with loops := .pop }).latch.loops = .pop) ∧
    ((∀ w ∈ (closing 2 0 id).latch.csrs, w.num ≠ 0x023) ∧
      ∃ w ∈ (closing 2 0 fun l => { l with csrs := [{ num := 0x023, val := 4 }] }).latch.csrs, w.num = 0x023) ∧
    ((closing 2 0 fun l => { l with shadow := some { target := 0x40, origin := 0x18 } }).latch.shadow = some { target := 0x40, origin := 0x18 } ∧
      (closing 2 0 fun l => { l with jump := some 0x40 }).latch.jump = some 0x40) ∧
    2 ∈ leading.members 0 ∧ (leading.core 0).pos = 0 := by
  refine ⟨⟨whole_of_check ?_, ?_⟩, ?_, ⟨⟨?_, ?_⟩, ?_, ?_, closed 2, .inl ⟨⟨?_, ?_⟩, rfl⟩⟩, ⟨⟨?_, ?_⟩, ?_, ?_, closed 1, .inr ⟨⟨?_, ?_⟩, rfl⟩⟩,
    ⟨?_, ?_, fun h => absurd h.2.2 ?_, fun h => absurd h.2.2.2 ?_⟩, ⟨fun h => absurd h.1 ?_, ?_⟩, ⟨?_, ?_⟩, ⟨?_, ?_⟩, ?_, ?_⟩ <;>
    first
      | decide +kernel | (unfold LoopEnds; decide +kernel)

theorem test_meets_StageAdvance :
    (∃ r : Regs, 0 < r.rotv ∧ r.rotw = 0 ∧ ∃ g ∈ r.flights, g.dest = .reg (.p 8)) ∧
    ∃ r : Regs, r.rotv = 0 ∧ 0 < r.rotw ∧ ∃ g ∈ r.flights, g.dest = .reg (.p 14) :=
  ⟨⟨{ Regs.start with rotv := 1, flights := [{ land := 5, seq := 1, prio := 0, dest := .reg (.p 8), val := 1 }] },
      by decide, rfl, _, List.mem_singleton_self _, rfl⟩,
    ⟨{ Regs.start with rotw := 80, flights := [{ land := 5, seq := 1, prio := 0, dest := .reg (.p 14), val := 1 }] },
      rfl, by decide, _, List.mem_singleton_self _, rfl⟩⟩

theorem test_meets_CsrAccess :
    Issuing (usual .k 0 5 7 0 0) ∧ InTable17 (0x080 : BitVec 12).toNat ∧ InTable17 (0x13F : BitVec 12).toNat ∧
    ¬ InTable17 (0x140 : BitVec 12).toNat ∧ ¬ InTable17 (0x0FF : BitVec 12).toNat ∧
    (csrNew? (.csrs 1 2 0x020 3) (usual .k 0 5 7 0 0)).isSome = true := by
  refine ⟨issuing_of _ (by decide +kernel), ?_, ?_, ?_, ?_, rfl⟩ <;> (unfold InTable17; decide)

theorem test_meets_CsrReadsWhatWasWritten :
    Table.wf Core.idle (usual .k 0 5 7 0 0).cores = true ∧ (csrStored Regs.start 0x054 9).isSome = true ∧ csrStored Regs.start 0x000 9 = none ∧
    (InTable17 0x033 ∧ (0x033 : Nat) ≠ 0x054) := by
  refine ⟨by decide +kernel, rfl, rfl, ?_, by decide⟩
  unfold InTable17
  decide

theorem test_meets_SoftwareTrapsAndHandlerForms :
    ((usual .k 0 5 7 0 0).me.hm = false ∧ Table.wf Core.idle (usual .k 0 5 7 0 0).cores = true) ∧
    (withCore (usual .k 0 5 7 0 0) fun x => { x with hm := true }).me.hm = true ∧
    Table.wf Core.idle (withCore (usual .k 0 5 7 0 0) fun x => { x with hm := true }).cores = true := by
  decide +kernel

/-- A trap of cause `c`. -/
def trapOf (c : Nat) : TrapInfo := { cause := c, t0 := 1, t1 := 2, t2 := 3, imp := false }

theorem test_meets_TakingATrap :
    (Table.wf Core.idle (usual .k 0 5 7 0 0).cores = true ∧ (trapOf 0x7F).cause ≠ 0x18 ∧ (trapOf 0x7F).cause < 0x80 ∧
      ((usual .k 0 5 7 0 0).core 0).hm = false) ∧
    Table.wf Core.idle (withCore (usual .k 0 5 7 0 0) fun x => { x with hm := true }).cores = true ∧
      ((withCore (usual .k 0 5 7 0 0) fun x => { x with hm := true }).core 0).hm = true ∧ (trapOf 0x18).cause = 0x18 := by
  decide +kernel

/-- A core in its handler, after a trap that found a transfer pending. -/
def handling : State :=
  withCore (usual .k 0 5 7 0 0) fun x => { x with hm := true, savedXfer := some { target := 0x40, origin := 0x18 } }

theorem test_meets_ReturnFromAHandler :
    (Table.wf Core.idle handling.cores = true ∧ (handling.core 0).gsize = 0 ∧ (handling.core 0).savedXfer.isSome = true ∧
      (handling.tile 0).errors = []) ∧
    (withCore (usual .k 0 5 7 0 0) fun x => { x with hm := true }).me.savedXfer = none := by
  decide +kernel

/-- A core in its handler, which two waits were suspended for. -/
def suspended : State := withCore (usual .k 0 5 7 0 0) fun x => { x with hm := true, savedWaits := [
  { slot := 4, word := 0x55, issued := 900, limit := some 1000, bound := 7, what := .phaser 1 0, again := false },
  { slot := 0, word := 0x66, issued := 900, limit := none, bound := 3, what := .lock 0 false, again := false }] }

theorem test_meets_ReturnFromAHandler_waits :
    Table.wf Core.idle suspended.cores = true ∧ (suspended.core 0).gsize = 0 ∧ (suspended.tile 0).errors = [] ∧
      (suspended.core 0).savedWaits.length = 2 := by decide +kernel

theorem test_meets_PredicateTransfers : Issuing (usual .k 0 0xFFFFFFFFFFFFFFFF 7 0 0) := issuing_of _ (by decide +kernel)

theorem test_meets_TimeReadsAndSleep :
    Issuing (usual .k 1 1001 16778216 16778217 0) ∧ (usual .k 1 1001 16778216 16778217 0).latch.hold = 0 ∧
    ((usual .k 1 1001 16778216 16778217 0).k 1).toNat ≤ (usual .k 1 1001 16778216 16778217 0).tick.toNat + 1 ∧
    ((usual .k 1 1001 16778216 16778217 0).k 2).toNat = (usual .k 1 1001 16778216 16778217 0).tick.toNat + 2 ^ 24 ∧
    (usual .k 1 1001 16778216 16778217 0).tick.toNat + 2 ^ 24 < ((usual .k 1 1001 16778216 16778217 0).k 3).toNat ∧
    (usual .k 1 1001 16778216 16778217 0).me.sleepTo = none ∧ SoundTime (usual .k 1 1001 16778216 16778217 0) ∧
    0 < sleepCycles (usual .k 1 1001 16778216 16778217 0) ((usual .k 1 1001 16778216 16778217 0).k 2).toNat :=
  ⟨issuing_of _ (by decide +kernel), by decide +kernel, by decide +kernel, by decide +kernel, by decide +kernel, by decide +kernel,
    ⟨rfl, by decide +kernel, by decide +kernel, by decide +kernel, by decide +kernel⟩, by decide +kernel⟩

/-! ## The vector slots and the M slot -/

theorem test_meets_IntegerLanes :
    ((vInt? (.vadd 639 0 1 .n8 true) (usual .v 0 5 7 0 0)).isSome = true ∧ Issuing (usual .v 0 5 7 0 0) ∧ Computes (usual .v 0 5 7 0 0)) ∧
    (vDot? (.vdot4Su 1 2 3 4 true)).isSome = true ∧ (vRed? (.vredMin 1 2 .i16) (usual .v 0 5 7 0 0)).isSome = true :=
  ⟨⟨by decide +kernel, issuing_of _ (by decide +kernel), .inl (by decide +kernel)⟩, by decide +kernel, by decide +kernel⟩

theorem test_meets_FloatLanes :
    ((vExact? (.vfma 1 2 3 4 .bf16 .rs) (usual .w 2 5 7 0 0)).isSome = true ∧ Issuing (usual .w 2 5 7 0 0) ∧ Computes (usual .w 2 5 7 0 0)) ∧
    (vLane? (.vfcmpUo 1 2 3 .f16) (usual .w 2 5 7 0 0)).isSome = true :=
  ⟨⟨rfl, issuing_of _ (by decide +kernel), .inl (by decide +kernel)⟩, rfl⟩

/-- An exchange phase, in handler mode. -/
def handlerMode (sl : Slot) : State := withCore (usual sl 1 5 7 0 0) fun x => { x with hm := true }

theorem test_meets_ClassesConversionsAndRandomLanes : Issuing (handlerMode .v) ∧ Computes (handlerMode .v) :=
  ⟨issuing_of _ (by decide +kernel), .inr (by decide +kernel)⟩

theorem test_meets_BlocksAndFloatReductions :
    (vQuant? (.vqblkB10 1 2 3 .rs)).isSome = true ∧ (vDequant? (.vdqblkB4Hi 1 2)).isSome = true ∧ (vfRed? (.vfredSum 1 2 .f16)).isSome = true ∧
    Issuing (handlerMode .w) ∧ Computes (handlerMode .w) :=
  ⟨rfl, rfl, rfl, issuing_of _ (by decide +kernel), .inr (by decide +kernel)⟩

theorem test_meets_CopiesBetweenFiles :
    (Issuing (usual .x 1 5 7 0 0) ∧ ¬ needsCompute (usual .x 1 5 7 0 0)) ∧ Issuing (usual .w 0 5 7 0 0) ∧ Computes (usual .w 0 5 7 0 0) := by
  refine ⟨⟨issuing_of _ (by decide +kernel), ?_⟩, issuing_of _ (by decide +kernel), .inl (by decide +kernel)⟩
  unfold needsCompute
  decide +kernel

theorem test_meets_AddressForms :
    (aResult? (.amuli 31 1 7) (usual .m 0 5 7 0 0)).isSome = true ∧ Issuing (usual .m 0 5 7 0 0) ∧ Computes (usual .m 0 5 7 0 0) :=
  ⟨by decide +kernel, issuing_of _ (by decide +kernel), .inl (by decide +kernel)⟩

/-- A memory operand: base register, offset. -/
def memOf (base : BitVec 5) (off : BitVec 24) (file : File) : MemOp := { base := base, file := file, reg := 5, off := off, post := false }

theorem test_meets_ScalarLoads :
    (scalarLoad? (.ldd (memOf 2 0x1038 .k))).isSome = true ∧ Issuing (usual .m 0 5 7 0 0) ∧ Computes (usual .m 0 5 7 0 0) ∧
    Inside (usual .m 0 5 7 0 0) { base := 0x1000, size := 2, ro := false, kind := 0, fmt := 0 }
      (address (usual .m 0 5 7 0 0) (memOf 2 0x1038 .k)) 8 8 ∧
    Loadable { base := 0x1000, size := 2, ro := false, kind := 0, fmt := 0 } ∧ NoErrors (usual .m 0 5 7 0 0) :=
  ⟨by decide +kernel, issuing_of _ (by decide +kernel), .inl (by decide +kernel), ⟨by decide +kernel, by decide +kernel⟩, .inl (by decide),
    by unfold NoErrors; decide +kernel⟩

theorem test_meets_PlainStores :
    (plainStore? (.stb (memOf 5 0 .m))).isSome = true ∧ Issuing (usual .m 0 5 7 0 0) ∧ Computes (usual .m 0 5 7 0 0) ∧
    Inside (usual .m 0 5 7 0 0) { base := 0x1000, size := 2, ro := false, kind := 0, fmt := 0 }
      (address (usual .m 0 5 7 0 0) (memOf 5 0 .m)) 1 1 ∧
    Storable { base := 0x1000, size := 2, ro := false, kind := 0, fmt := 0 } ∧ RoomFor (usual .m 0 5 7 0 0) 16 :=
  ⟨by decide +kernel, issuing_of _ (by decide +kernel), .inl (by decide +kernel), ⟨by decide +kernel, by decide +kernel⟩,
    ⟨by decide, rfl⟩, .inl (by decide +kernel)⟩

theorem test_meets_VectorLoads :
    (Issuing (usual .m 0 5 7 0 0) ∧ Computes (usual .m 0 5 7 0 0) ∧ NoErrors (usual .m 0 5 7 0 0)) ∧
    (viewSize .bf24 11 = some 16 ∧
      Inside (usual .m 0 5 7 0 0) { base := 0x8000, size := 1, ro := false, kind := 0, fmt := 11 }
        (address (usual .m 0 5 7 0 0) (memOf 3 0xFF0 .v)) 16 16 ∧
      Viewable .bf24 { base := 0x8000, size := 1, ro := false, kind := 0, fmt := 11 } ∧ isBlockView .bf24 = true ∧
      poisoned (codeBlk 11) (loaded (usual .m 0 5 7 0 0) (address (usual .m 0 5 7 0 0) (memOf 3 0xFF0 .v)) 16) = false) ∧
    (StridedInside (usual .m 0 5 7 0 0) { base := 0x1000, size := 2, ro := false, kind := 0, fmt := 0 } (memOf 2 0x1000 .v) 4
        (elementSize .raw 0) ∧ Viewable .raw { base := 0x1000, size := 2, ro := false, kind := 0, fmt := 0 }) ∧
    (usual .m 0 5 7 0 0).me.split = false ∧ address (usual .m 0 5 7 0 0) (memOf 2 0x3E000 .w) = 0x3FFC0 :=
  ⟨⟨issuing_of _ (by decide +kernel), .inl (by decide +kernel), by unfold NoErrors; decide +kernel⟩,
    ⟨rfl, ⟨by decide +kernel, by decide +kernel⟩, by unfold Viewable; rw [if_neg (by decide)]; decide, rfl, by decide +kernel⟩,
    ⟨⟨⟨by decide +kernel, by decide +kernel⟩, by decide +kernel⟩, by unfold Viewable; rw [if_pos rfl]; exact .inl (by decide)⟩, by decide +kernel⟩

theorem test_meets_VectorStoresAndMark :
    (Issuing (usual .m 0 5 7 0 0) ∧ Computes (usual .m 0 5 7 0 0) ∧ RoomFor (usual .m 0 5 7 0 0) 256) ∧
    (StridedInside (usual .m 0 5 7 0 0) { base := 0x1000, size := 2, ro := false, kind := 0, fmt := 0 } (memOf 2 0x1000 .v) 4 4 ∧
      Storable { base := 0x1000, size := 2, ro := false, kind := 0, fmt := 0 }) ∧
    (memOf 2 0x1000 .w).file = .w ∧ Inside (usual .m 0 5 7 0 0) { base := 0x1000, size := 2, ro := false, kind := 0, fmt := 0 }
      (address (usual .m 0 5 7 0 0) (memOf 2 0x1000 .w)) 64 64 :=
  ⟨⟨issuing_of _ (by decide +kernel), .inl (by decide +kernel), .inl (by decide +kernel)⟩,
    ⟨⟨⟨by decide +kernel, by decide +kernel⟩, by decide +kernel⟩, ⟨by decide, rfl⟩⟩, rfl, ⟨by decide +kernel, by decide +kernel⟩⟩

/-- A core that has parked v3, in register 630 of the W file or in its spill region. -/
def parked (p : ParkPlace) : State :=
  withCore (usual .m 0 5 7 0 0) fun x => { x with regs := { x.regs with spills := [{ file := .v, reg := 3, place := p }] } }

theorem test_meets_SpillsAndFills :
    (Issuing (usual .m 0 5 7 0 0) ∧ Computes (usual .m 0 5 7 0 0) ∧ RoomFor (usual .m 0 5 7 0 0) 80) ∧
    (∃ p, (usual .m 0 5 7 0 0).me.spillPlace .v (spillName (usual .m 0 5 7 0 0) .v 3) = some (.reg p)) ∧
    (∃ a, (parked (.reg 630)).me.spillPlace .v (spillName (parked (.reg 630)) .v 4) = some (.mem a)) ∧
    ((parked (.reg 630)).me.regs.spills.find? (fun e => decide (e.file = .v ∧ e.reg = spillName (parked (.reg 630)) .v 3))).isSome = true ∧
    (withCore (usual .m 0 5 7 0 0) fun x => { x with regions := [] }).me.spillPlace .w 3 = none ∧
    (usual .m 0 5 7 0 0).me.regs.spills.find? (fun e => decide (e.file = .v ∧ e.reg = spillName (usual .m 0 5 7 0 0) .v 3)) = none :=
  ⟨⟨issuing_of _ (by decide +kernel), .inl (by decide +kernel), .inl (by decide +kernel)⟩, ⟨630, by decide +kernel⟩,
    ⟨0x4000, by decide +kernel⟩, by decide +kernel, by decide +kernel, by decide +kernel⟩

/-! ## Locks and phasers -/

/-- The usual core as a member of phaser `ph`, and core 2 beside it. -/
def phased (phase ph : Nat) (mine other : Member) : State :=
  withPart (usual .x phase 5 7 0 0) fun p => { p with phasers := [(ph, { Phaser.reset with members := [(0, mine), (2, other)] })] }

def signaller : Member := { mode := some .sw, view := some .sw, pending := none, seen := 0, arr := 0 }
def waiter : Member := { mode := some .wo, view := some .wo, pending := none, seen := 0, arr := 0 }
def arrived : Member := { mode := some .sw, view := some .sw, pending := none, seen := 0, arr := 1 }

/-- The usual core has arrived at phaser 1, which has not released that epoch. -/
def waiting : State :=
  withPart (usual .x 0 5 7 0 0) fun p => { p with phasers := [(1, { Phaser.reset with
    members := [(0, arrived), (2, signaller)], arrivals := [(0, some { Arrival.plain with time := 990 })] })] }

/-- Core 0 with a store still to perform `n` cycles on. -/
def busy (n : Nat) : State := withCore (usual .k 0 5 7 0 0) fun x => { x with performs := 1000 + n }

/-- Core 0 in a sheaf reduction that has not all its members. -/
def reducing : State := { usual .k 0 5 7 0 0 with mreds := [(0, { arrived := [(0, 0, 3, 990)], q := none, rows := [] })] }

theorem test_meets_LocksAndEnd :
    ((lockOf? (.lockAnd 2 true true 7) (phased 0 0 signaller signaller)).isSome = true ∧ Live (phased 0 0 signaller signaller) ∧
      (phased 0 0 signaller signaller).me.part = some 1 ∧ ¬ HasArrived (memberOf (phased 0 0 signaller signaller) 1 0) ∧
      (phased 0 0 signaller signaller).me.arriving = none) ∧
    (Live (phased 1 0 arrived signaller) ∧ (phased 1 0 arrived signaller).me.part = some 1 ∧
      HasArrived (memberOf (phased 1 0 arrived signaller) 1 0)) ∧
    ((busy 16).endOpen (busy 16).latch.core = false ∧ (busy 16).endTime (busy 16).latch.core = (busy 16).now + 16 * (1 : BitVec 18).toNat) ∧
    ((busy 17).endOpen (busy 17).latch.core = false ∧ (busy 17).now + 16 * (1 : BitVec 18).toNat < (busy 17).endTime (busy 17).latch.core) ∧
    reducing.endOpen reducing.latch.core = true := by
  refine ⟨⟨rfl, live_of _ (by decide +kernel), by decide +kernel, ?_, by decide +kernel⟩,
    ⟨live_of _ (by decide +kernel), by decide +kernel, ?_⟩, by decide +kernel, by decide +kernel, by decide +kernel⟩ <;>
  (unfold HasArrived; decide +kernel)

/-- Nobody of phaser 1 signals. -/
def quietPhaser : State := phased 0 1 Member.none waiter

theorem get_two {α : Type} (d a b : α) (n : Nat) : Table.get d [(0, a), (2, b)] n = if n = 0 then a else if n = 2 then b else d := by
  by_cases h0 : n = 0
  · subst h0; rfl
  · rw [if_neg h0]
    show (if 0 = n then a else if n < 0 then d else if 2 = n then b else if n < 2 then d else d) = _
    rw [if_neg (Ne.symm h0), if_neg (Nat.not_lt_zero n)]
    by_cases h2 : n = 2
    · rw [if_pos h2.symm, if_pos h2]
    · rw [if_neg (Ne.symm h2), if_neg h2]
      split <;> rfl

/-- A release that the usual core, a member of phaser 1, has yet to observe. -/
def lagging : State :=
  withPart (usual .x 0 5 7 0 0) fun p => { p with phasers := [(1, { Phaser.reset with epoch := 1, members := [(0, signaller)] })] }

/-- A PSIG of the usual core on its lock's phaser, not made yet. -/
def delayed : State := withCore (phased 0 0 signaller signaller) fun x => { x with arriving := some Arrival.plain }

theorem test_meets_PhaserForms :
    ((pregMode? (.pregSo 1)).isSome = true ∧ Usable quietPhaser 1 ∧ quietPhaser.me.part = some 1 ∧ Unjoined quietPhaser 1 1) ∧
    ((1 : BitVec 6) ≠ 0 ∧ Usable (phased 0 1 signaller waiter) 1 ∧ (memberOf (phased 0 1 signaller waiter) 1 1).view = some .sw ∧
      ¬ Unjoined (phased 0 1 signaller waiter) 1 1 ∧ ¬ Lags (phased 0 1 signaller waiter) 1 1 ∧
      SeesItSignal (memberOf (phased 0 1 signaller waiter) 1 1) ∧ Signals (memberOf (phased 0 1 signaller waiter) 1 1) ∧
      ¬ HasArrived (memberOf (phased 0 1 signaller waiter) 1 1)) ∧
    (Usable (phased 0 63 Member.none signaller) 63 ∧ (memberOf (phased 0 63 Member.none signaller) 1 63).view = none ∧
      ∃ e ∈ (phaserOf (phased 0 63 Member.none signaller) 1 63).members, Signals e.2) ∧
    (Usable (phased 0 1 waiter signaller) 1 ∧ (memberOf (phased 0 1 waiter signaller) 1 1).view = some .wo ∧ ¬ Signals (memberOf (phased 0 1 waiter signaller) 1 1) ∧
      ¬ Lags (phased 0 1 waiter signaller) 1 1) ∧
    (Usable lagging 1 ∧ (memberOf lagging 1 1).view = some .sw ∧ Lags lagging 1 1) ∧
    (Usable waiting 1 ∧ HasArrived (memberOf waiting 1 1) ∧ ¬ Lags waiting 1 1) ∧
    (Live (phased 0 0 signaller signaller) ∧ Usable (phased 0 0 signaller signaller) 0 ∧
      SeesItSignal (memberOf (phased 0 0 signaller signaller) 1 0) ∧ ¬ HasArrived (memberOf (phased 0 0 signaller signaller) 1 0) ∧
      (phased 0 0 signaller signaller).me.arriving = none) ∧
    (delayed.me.arriving ≠ none ∧ Usable delayed 0 ∧ (memberOf delayed 1 0).view = some .sw ∧ delayed.me.part = some 1) ∧
    (memberOf (phased 0 1 { signaller with mode := some .so, view := some .so } waiter) 1 1).view = some .so ∧
    ¬ Usable (phased 0 1 signaller waiter) 2 := by
  refine ⟨⟨rfl, .inr ?_, ?_, ?_, ?_, ?_⟩, ⟨by decide, .inr ?_, ?_, ?_, ?_, .inl ?_, .inl ?_, ?_⟩,
    ⟨.inr ?_, ?_, (2, signaller), ?_, .inl rfl⟩, ⟨.inr ?_, ?_, ?_, ?_⟩, ⟨.inr ?_, ?_, ?_⟩, ⟨.inr ?_, ?_, ?_⟩,
    ⟨live_of _ ?_, .inl rfl, .inl ?_, ?_, ?_⟩, ⟨?_, .inl rfl, ?_, ?_⟩, ?_, ?_⟩ <;>
    first
      | decide +kernel | (unfold HasArrived; decide +kernel) | (unfold Signals; decide +kernel) | (unfold Usable; decide +kernel)
      | (unfold Lags; decide +kernel) | (unfold Unjoined; decide +kernel)
      | (rintro ⟨-, h, -⟩; exact absurd h (by decide +kernel))

/-- The arrival of core 0 at phaser 1, where core 2 is still to come, and where it is the last. -/
def early : Phaser := ((phased 0 1 signaller signaller).arrive 0 1 Arrival.plain).phaser 1 1
def last : Phaser := ((phased 0 1 signaller waiter).arrive 0 1 Arrival.plain).phaser 1 1

theorem test_meets_ArrivalsAndReleases :
    (Whole (phased 0 1 signaller signaller) ∧ ((phased 0 1 signaller signaller).core 0).part = some 1 ∧
      ((phased 0 1 signaller signaller).phaser 1 1).release = none ∧
      Signals (Table.get Member.none early.members 2) ∧ Table.get none early.arrivals 2 = none) ∧
    Whole (phased 0 1 signaller waiter) ∧ ((phased 0 1 signaller waiter).phaser 1 1).release = none ∧
      Signals (Table.get Member.none last.members 0) ∧
      ∀ d, Signals (Table.get Member.none last.members d) → Table.get none last.arrivals d ≠ none := by
  refine ⟨⟨whole_of_check ?_, ?_, ?_, .inl ?_, ?_⟩, whole_of_check ?_, ?_, .inl ?_, ?_⟩ <;> try decide +kernel
  intro d h
  have hm : last.members = [(0, { signaller with arr := 1 }), (2, waiter)] := by decide +kernel
  have ha : last.arrivals = [(0, some { Arrival.plain with time := 1000 })] := by decide +kernel
  rw [hm, get_two] at h
  rw [ha]
  split at h
  · subst_vars; simp [Table.get]
  · split at h <;> (rcases h with h | h <;> simp [waiter, Member.none] at h)

theorem test_meets_VectorFormsNeedAComputePhase :
    ((usual .m 1 5 7 0 0).latch.slot = .m ∧ wfM (.aadd 1 2 3) = true ∧ NotInExchange (usual .m 1 5 7 0 0)) ∧
    ((usual .w 1 5 7 0 0).latch.slot = .w ∧ wfV .w (.vadd 1 2 3 .i8 false) = true ∧ NotInExchange (usual .w 1 5 7 0 0)) ∧
    ((usual .m 1 5 7 0 0).latch.slot = .m ∧ wfM (.ldacc (memOf 1 0 .w)) = true ∧ (usual .m 1 5 7 0 0).me.split = false) := by
  unfold NotInExchange
  decide +kernel

/-! ## Channels and trees -/

/-- A route entry by its fields. -/
def routeWord (dest peer mode win len base rop down : Nat) : BitVec 128 :=
  BitVec.ofNat 128 (dest + peer * 2 ^ 16 + mode * 2 ^ 24 + win * 2 ^ 40 + len * 2 ^ 48 + base * 2 ^ 64 + rop * 2 ^ 88 + down * 2 ^ 91)

/-- Core 0 in an exchange phase, with route entry 5 and what it counts; x1 names 4 flits from 0x1000 on at offset 0, x2 the whole entry. -/
def onChannel (r : BitVec 128) (k : Chan) (windowed : Bool) : State :=
  withCore (withTile (usual .x 1 0x0000000400001000 0x1000 0 0) fun x => { x with routes := [(5, r)], chans := Table.set Chan.reset [] 5 k })
    fun x => { x with windowed := windowed }

def sends : BitVec 128 := routeWord 1 9 1 8 8 0x2000 0 0
def receives : BitVec 128 := routeWord 1 9 2 8 8 0x2000 0 0
def reduces : BitVec 128 := routeWord 0 5 4 0 8 0x2000 5 1

def plainRegion : Region := { base := 0x1000, size := 2, ro := false, kind := 0, fmt := 0 }

/-- Core 0 of a split tile. -/
def ofOther (phase : Nat) : State := withCore (usual .x phase 0 0 0 0) fun x => { x with split := true }

theorem test_meets_ChannelForms :
    Issuing (onChannel sends Chan.reset false) ∧
    (Live (onChannel sends { Chan.reset with infl := 4 } false) ∧ flits (onChannel sends { Chan.reset with infl := 4 } false) 5 1 = 4 ∧
      SendSound (onChannel sends { Chan.reset with infl := 4 } false) 5 0x1000 4 0 ∧
      (countOf (onChannel sends { Chan.reset with infl := 4 } false) 5).infl + 4 =
        routeWin (entryOf (onChannel sends { Chan.reset with infl := 4 } false) 5)) ∧
    (Live (onChannel sends { Chan.reset with infl := 5 } true) ∧ flits (onChannel sends { Chan.reset with infl := 5 } true) 5 1 = 4 ∧
      routeWin (entryOf (onChannel sends { Chan.reset with infl := 5 } true) 5) <
        (countOf (onChannel sends { Chan.reset with infl := 5 } true) 5).infl + 4 ∧
      (onChannel sends { Chan.reset with infl := 5 } true).me.windowed = true ∧
      (onChannel sends { Chan.reset with infl := 5 } false).me.windowed = false) ∧
    (NeedSound (onChannel receives { Chan.reset with arr := 4 } true) 5 1 ∧
      NeedSound (onChannel receives { Chan.reset with arr := 4 } true) 5 2 ∧
      routeMode (entryOf (onChannel receives { Chan.reset with arr := 4 } true) 5) = 2 ∧
      flits (onChannel receives { Chan.reset with arr := 4 } true) 5 1 = arrivedFlits (onChannel receives { Chan.reset with arr := 4 } true) 5 ∧
      flits (onChannel receives { Chan.reset with arr := 4 } true) 5 2 = routeLen (entryOf (onChannel receives { Chan.reset with arr := 4 } true) 5) ∧
      arrivedFlits (onChannel receives { Chan.reset with arr := 4 } true) 5 < flits (onChannel receives { Chan.reset with arr := 4 } true) 5 2 ∧
      (onChannel receives { Chan.reset with arr := 4 } true).me.windowed = true ∧
      (onChannel receives { Chan.reset with arr := 4 } false).me.windowed = false) ∧
    (Live (onChannel reduces Chan.reset false) ∧ (sendr? (.sendrXor 5 2 0)).isSome = true ∧
      ReceivesTree (onChannel reduces Chan.reset false) 5 ∧ SendrSound (onChannel reduces Chan.reset false) 5 5 0x1000 ∧
      (countOf (onChannel reduces Chan.reset false) 5).contrib = none ∧
      (countOf (onChannel reduces { Chan.reset with contrib := some (990, 0x1000) } false) 5).contrib ≠ none) ∧
    (¬ Exchanges (usual .x 0 0 0 0 0) ∧ OwnEntry (usual .x 0 0 0 0 0) 255 ∧ routeMode (entryOf (usual .x 0 0 0 0 0) 255) ≠ 1) ∧
    (¬ Exchanges (ofOther 0) ∧ OtherEntry (ofOther 0) 128 ∧ OwnEntry (ofOther 0) 127) := by
  refine ⟨issuing_of _ ?_, ⟨live_of _ ?_, ?_, ⟨.inl ?_, ?_, ?_, ?_, ⟨plainRegion, ⟨?_, ?_⟩, ?_⟩, ?_⟩, ?_⟩, ⟨live_of _ ?_, ?_, ?_, ?_, ?_⟩,
    ⟨⟨.inl ?_, ?_, ?_⟩, ⟨.inl ?_, ?_, ?_⟩, ?_, ?_, ?_, ?_, ?_, ?_⟩,
    ⟨live_of _ ?_, ?_, .inl ?_, ⟨.inl ?_, .inr ?_, ?_, ?_, ⟨plainRegion, ⟨?_, ?_⟩, ?_⟩⟩, ?_, ?_⟩, ⟨?_, .inl ?_, ?_⟩, ?_, ?_, .inr ?_⟩ <;>
    first | decide +kernel | (unfold Exchanges; decide +kernel) | (unfold OtherEntry; decide +kernel)

/-- A flit of the fragment of entry 5, from tile 0 to entry 9 of tile 1. -/
def flitOf (d : Option (BitVec 1024)) (hops : List Hop) : Flit :=
  { kind := .fragment, src := 0, chan := 5, issue := 990, k := 3, addr := 0x1180, data := d, hops := hops, port := 4, waits := false, dest := 1,
    entry := 9, daddr := 0x2180, phase := 1, sched := 1007, pass := 0, mapver := 0 }

def hopEast : Hop := { tile := 0, dir := 0, lat := 2 }

/-- The fragment's last flit is still under way. -/
def sending : State := withTile (onChannel sends { Chan.reset with infl := 1 } false) fun x =>
  { x with outs := [{ chan := 5, issue := 990, left := 1, due := some 1007 }] }

/-- The link is taken; 16 flits are ahead of it; another of a lower key is due at it. -/
def taken : State := { sending with links := [(0, 1001)] }
def crowded : State := { sending with waiting := [(aheadOf hopEast, 16)] }
def contended : State := sending.post 1000 rankLink (.flitLinkEntry { flitOf (some 7) [hopEast] with chan := 4, issue := 980 })

/-- Tile 1 holds for a move. -/
def heldBack : State := sending.setTile 1 { Tile.idle with move := .holding, moveEnd := 2000 }

theorem contended_meets : Contended contended (flitOf (some 7) [hopEast]) hopEast := by
  refine ⟨_, List.mem_singleton_self _, ?_, { flitOf (some 7) [hopEast] with chan := 4, issue := 980 }, hopEast, [], ?_, ?_, ?_, ?_, ?_⟩ <;>
    decide +kernel

theorem test_meets_FlitsOnTheirWay :
    ((flitOf none []).data = none ∧ Clean sending (flitOf none []).src) ∧
    ((flitOf (some 7) [hopEast]).hops = [hopEast] ∧ Whole sending ∧ ¬ LinkTaken sending hopEast ∧ ¬ FullAhead sending hopEast ∧
      ¬ Contended sending (flitOf (some 7) [hopEast]) hopEast) ∧
    (Whole taken ∧ LinkTaken taken hopEast) ∧
    (Whole crowded ∧ ¬ LinkTaken crowded hopEast ∧ FullAhead crowded hopEast ∧ (flitOf (some 7) [hopEast]).pass < 256) ∧
    (FullAhead crowded hopEast ∧ 256 ≤ { flitOf (some 7) [hopEast] with pass := 256 }.pass ∧
      { flitOf (some 7) [hopEast] with pass := 256 }.hops = [hopEast]) ∧
    (Whole contended ∧ ¬ LinkTaken contended hopEast ∧ Contended contended (flitOf (some 7) [hopEast]) hopEast) ∧
    ((flitOf (some 7) []).hops = [] ∧ Settled sending (flitOf (some 7) [])) ∧
    (heldBack.tile (flitOf (some 7) []).dest).move = .holding ∧
    (∃ o ∈ (sending.tile (flitOf (some 7) []).src).outs, o.chan = 5 ∧ o.issue = 990 ∧ o.left = 1 ∧
      ∀ p ∈ (sending.tile (flitOf (some 7) []).src).outs, p.chan = 5 → p.issue = 990 → p = o) ∧
    (sending.core (sending.chanCore 0 5)).phase = 1 := by
  refine ⟨⟨rfl, ?_⟩, ⟨rfl, whole_of_check ?_, ?_, ?_, ?_⟩, ⟨whole_of_check ?_, ?_⟩, ⟨whole_of_check ?_, ?_, ?_, ?_⟩, ⟨?_, ?_, rfl⟩,
    ⟨whole_of_check ?_, ?_, contended_meets⟩, ⟨rfl, ?_⟩, ?_,
    ⟨{ chan := 5, issue := 990, left := 1, due := some 1007 }, ?_, rfl, rfl, rfl, ?_⟩, ?_⟩ <;>
    first
      | decide +kernel | (unfold Settled; decide +kernel) | (unfold LinkTaken; decide +kernel) | (unfold FullAhead; decide +kernel)
      | (unfold Clean; decide +kernel) | (rintro ⟨v, hv, -⟩; exact absurd hv (List.not_mem_nil))

/-- A root whose one child has not come, and one whose child's flit is there. -/
def treeRoot2 (merges : Table (List (Nat × Nat × BitVec 1024))) : State :=
  { withTile (onChannel reduces { Chan.reset with contrib := some (990, 0x1000), merges := merges } false) (fun x => x) with
    tiles := [(0, { Tile.idle with routes := [(5, reduces)], chans := [(5, { Chan.reset with contrib := some (990, 0x1000), merges := merges })] }),
              (1, { Tile.idle with routes := [(6, routeWord 0 5 3 0 8 0x2000 5 0)] })] }

theorem test_meets_TreeMergesAndResults :
    (Whole (treeRoot2 []) ∧ Clean (treeRoot2 []) 0 ∧ (treeRoot2 []).children ((treeRoot2 []).partOf ((treeRoot2 []).chanCore 0 5)) 0 5 = [(0, 1, 6)] ∧
      (Table.get [] ((treeRoot2 []).chan 0 5).merges 7 ++ [(4, 1003, 0)]).length ≤
        ((treeRoot2 []).children ((treeRoot2 []).partOf ((treeRoot2 []).chanCore 0 5)) 0 5).length ∧
      6 + 1 < routeLen ((treeRoot2 []).route 0 5)) ∧
    (Whole (treeRoot2 [(7, [(0, 995, 1)])]) ∧
      ((treeRoot2 [(7, [(0, 995, 1)])]).children ((treeRoot2 [(7, [(0, 995, 1)])]).partOf ((treeRoot2 [(7, [(0, 995, 1)])]).chanCore 0 5)) 0 5).length <
        (Table.get [] ((treeRoot2 [(7, [(0, 995, 1)])]).chan 0 5).merges 7 ++ [(4, 1003, 0)]).length ∧
      routeMode ((treeRoot2 [(7, [(0, 995, 1)])]).route 0 5) = 4) ∧
    (routeMode ((treeRoot2 []).route 1 6) = 3 ∧ (treeRoot2 []).children ((treeRoot2 []).partOf ((treeRoot2 []).chanCore 1 6)) 1 6 = [] ∧
      (treeRoot2 []).treeRoot ((treeRoot2 []).partOf ((treeRoot2 []).chanCore 0 5)) treeFuel 0 5 = (0, 5) ∧
      routeDown ((treeRoot2 []).route 0 5) = true) := by
  refine ⟨⟨whole_of_check ?_, ?_, ?_⟩, ⟨whole_of_check ?_, ?_⟩, ?_⟩ <;> first | decide +kernel | (unfold Clean; decide +kernel)

/-! ## Streams, slots and the array -/

/-- A descriptor of 32 four-byte units from `src` to `dst`; the pattern side is the destination where `pside` is set. -/
def descOf (src dst : Word) (pside : Bool) : Desc :=
  { Desc.reset with src := src, dst := dst, d0 := 0x0020000000000004, ctl := if pside then 0x22 else 2 }

/-- Core 0 of a compute phase with engine 5's descriptor and transfer. -/
def streaming (d : Desc) (x : Option Transfer) : State :=
  withTile (usual .x 0 7 32 0 0) fun t => { t with engines := Table.set Engine.reset [] 5 { desc := d, xfer := x, past := [], next := 3 } }

/-- A transfer of that descriptor of which `n` beats have been read. -/
def transferOf (d : Desc) (b : Binding) (n : Nat) (done : Option Nat) : Transfer :=
  { id := 2, core := 0, desc := d, fmt := 0, start := 900, beats := 2, bind := b, read := n, entered := n, popped := n, reserved := n, pushed := 0,
    written := n, carry := none, fetched := [], window := [], gone := [], index := [], unbound := false, masked := false, fault := false,
    done := done }

def copyDesc : Desc := descOf 0x1000 0x1800 false
def inDesc : Desc := descOf 0x1000 0x6000000000000000 false
def outDesc : Desc := descOf 0x6000000000000000 0x1800 true

/-- Every slot claimed; the last one free; slot 7 claimed. -/
def claimed (ns : List Nat) : State := withTile (usual .x 0 7 32 31 0) fun t => { t with slots := ns.map fun n => (n, .claimed) }

/-- A tile-store side whose units lie in region `r`. -/
theorem side_in_store (s : State) (d : Desc) (fmt : Nat) (dst : Bool) (r : Region) (hk : sideKind (d.side dst) = 0)
    (hs : sideSlot (d.side dst) = 0) (hr : regionOf s.me.regions (unitAt d fmt dst 0).toNat = some r) (hp : StreamRegion r dst d.dec)
    (hx : d.ix = false) (hu : ∀ n, n < d.units → 0 ≤ unitAt d fmt dst 0 ∧ 0 ≤ unitAt d fmt dst n ∧
      Within r (unitAt d fmt dst n) (unitSize d fmt dst) ∧
      unitAt d fmt dst n % unitBytes ((s.fmtAt (unitAt d fmt dst n).toNat).getD 0) = 0 ∧
      unitSize d fmt dst % unitBytes ((s.fmtAt (unitAt d fmt dst n).toNat).getD 0) = 0) : SideSound s d fmt dst where
  kind := ⟨by omega, fun _ => by omega⟩
  plain := fun _ => hs
  core := fun h => by omega
  slot := fun h => by omega
  store := fun _ _ n hn => ⟨(hu n hn).1, (hu n hn).2.1, ⟨r, hr, hp, (hu n hn).2.2.1⟩, (hu n hn).2.2.2⟩
  moved := fun _ h => absurd (.inl hx) h
  bank := fun h => by omega

/-- A side that is a register. -/
theorem side_of_register (s : State) (d : Desc) (fmt : Nat) (dst : Bool) (hk : sideKind (d.side dst) = 3) (hs : sideSlot (d.side dst) = 0) :
    SideSound s d fmt dst where
  kind := ⟨by omega, fun _ => by omega⟩
  plain := fun _ => hs
  core := fun h => by omega
  slot := fun h => by omega
  store := fun h => by omega
  moved := fun h => by omega
  bank := fun h => by omega

/-- The first region, which takes every access. -/
def region1 : Region := { base := 0x1000, size := 2, ro := false, kind := 0, fmt := 0 }

theorem sound_copy : StreamSound (streaming copyDesc none) 5 none copyDesc 0 where
  ofEngine := by decide +kernel
  ofSource := by decide +kernel
  reserved := by decide +kernel
  src := side_in_store _ _ _ _ region1 rfl rfl (by decide +kernel) (.inl (by decide)) rfl (by unfold Within; decide +kernel)
  dst := side_in_store _ _ _ _ region1 rfl rfl (by decide +kernel) (.inl (by decide)) rfl (by unfold Within; decide +kernel)
  window := by decide
  pattern := by decide
  decode := by decide
  same := fun _ _ _ => by decide +kernel
  index := fun h => absurd h (by decide)
  free := by decide +kernel
  register := by simp

theorem sound_in : StreamSound (streaming inDesc none) 5 (some (.v, 632, false)) inDesc 0 where
  ofEngine := by decide +kernel
  ofSource := by decide +kernel
  reserved := by decide +kernel
  src := side_in_store _ _ _ _ region1 rfl rfl (by decide +kernel) (.inl (by decide)) rfl (by unfold Within; decide +kernel)
  dst := side_of_register _ _ _ _ rfl rfl
  window := by decide
  pattern := by decide
  decode := by decide
  same := by decide
  index := fun h => absurd h (by decide)
  free := by decide +kernel
  register := by
    intro f n o h
    cases h
    decide +kernel

theorem sound_out : StreamSound (streaming outDesc none) 5 (some (.w, 639, true)) outDesc 0 where
  ofEngine := by decide +kernel
  ofSource := by decide +kernel
  reserved := by decide +kernel
  src := side_of_register _ _ _ _ rfl rfl
  dst := side_in_store _ _ _ _ region1 rfl rfl (by decide +kernel) (.inl (by decide)) rfl (by unfold Within; decide +kernel)
  window := by decide
  pattern := by decide
  decode := by decide
  same := by decide
  index := fun h => absurd h (by decide)
  free := by decide +kernel
  register := by
    intro f n o h
    cases h
    decide +kernel

theorem engine_ok (g : Engine) (h : g.past = []) : EngineOk g := ⟨by simp [h], by simp [h], by simp [h]⟩

/-- Slot 30 has been released, and slot 31 never. -/
def released : State := withTile (claimed []) fun t => { t with freed := [30] }

theorem test_meets_StreamAndSlotForms :
    (Live (streaming copyDesc none) ∧ OwnEngine (streaming copyDesc none) (5 : BitVec 3).toNat ∧ ¬ Exchanges (streaming copyDesc none) ∧
      Fresh (streaming copyDesc none) ∧ RoomFor (streaming copyDesc none) 16 ∧ EngineOk (engineOf (streaming copyDesc none) 5) ∧
      StreamSound (streaming copyDesc none) 5 none copyDesc 0 ∧
      StreamSound (streaming inDesc none) 5 (some (.v, 632, false)) inDesc 0 ∧
      StreamSound (streaming outDesc none) 5 (some (.w, 639, true)) outDesc 0 ∧
      ((streaming inDesc none).streamCause (streamAsked (streaming inDesc none) 5 none)).isSome = true) ∧
    (∀ x, (engineOf (streaming copyDesc none) 5).shown = some x → x.done ≠ none) ∧
    (∃ x, (engineOf (streaming copyDesc (some (transferOf copyDesc .sgo 0 none))) 5).shown = some x ∧ x.done = none ∧ x.bind = .sgo) ∧
    (Live (claimed (List.range 32)) ∧ OwnArray (claimed (List.range 32)) ∧ ∀ n, n < 32 → (mine (claimed (List.range 32))).slot n ≠ .free) ∧
    (Live (claimed (List.range 31)) ∧ (mine (claimed (List.range 31))).slot 31 = .free ∧
      (∀ m, m < 31 → (mine (claimed (List.range 31))).slot m ≠ .free) ∧
      (mine (claimed (List.range 31))).claims ((claimed (List.range 31)).x 1).toNat = true ∧ (claimed (List.range 31)).me.segOpen.getD 0 = 0 ∧
      31 < ((claimed (List.range 31)).x 2).toNat ∧ ((claimed (List.range 31)).x 3).toNat = 31) ∧
    (Live (withCore (claimed [7]) fun x => { x with segOpen := some 1 }) ∧
      (mine (withCore (claimed [7]) fun x => { x with segOpen := some 1 })).claims 7 = true ∧
      (withCore (claimed [7]) fun x => { x with segOpen := some 1 }).me.segOpen.getD 0 ≠ 0 ∧
      RoomFor (withCore (claimed [7]) fun x => { x with segOpen := some 1 }) 16) ∧
    ((mine released).claims (released.x 3).toNat = false ∧ (mine released).slot (released.x 3).toNat = .free ∧ (released.x 3).toNat ∉ (mine released).freed ∧
      (released.x 3).toNat < 32 ∧ 30 ∈ (mine released).freed) ∧
    ¬ OwnEngine (streaming copyDesc none) (6 : BitVec 3).toNat := by
  refine ⟨⟨live_of _ ?_, ?_, ?_, ?_, .inl ?_, engine_ok _ ?_, sound_copy, sound_in, sound_out, ?_⟩, ?_, ⟨transferOf copyDesc .sgo 0 none, ?_, rfl, rfl⟩,
    ⟨live_of _ ?_, .inl ?_, ?_⟩, ⟨live_of _ ?_, ?_⟩, ⟨live_of _ ?_, ?_, ?_, .inr ?_⟩, ?_, ?_⟩ <;>
    first
      | decide +kernel | (unfold OwnEngine; decide +kernel) | (unfold Exchanges; decide +kernel) | (unfold Fresh; decide +kernel)

/-- The stream of the second beat. -/
def beat1 (d : Desc) (b : Binding) : State := streaming d (some (transferOf d b 1 none))

/-- A slot that drains. -/
def draining : State := withTile (usual .x 0 0 0 0 0) fun t => { t with slots := [(31, .draining)] }

/-- An indexed copy of 64 units, 32 to a word of the list at 0x1400; its first word is `w`, or is yet to be sampled. -/
def ixDesc (pside : Bool) : Desc :=
  { descOf 0x1000 0x1800 pside with ctl := if pside then 0x62 else 0x42, d3 := 0x0002000000000080, idx := 0x1400 }
def ixTransfer (pside : Bool) (words : Table Nat) : Transfer := { transferOf (ixDesc pside) .sgo 1 none with beats := 4, index := words }
def indexed (pside : Bool) (words : Table Nat) : State := streaming (ixDesc pside) (some (ixTransfer pside words))

/-- A decoding copy, the first unit of beat 1 of which is carried over. -/
def decTransfer : Transfer := { transferOf { copyDesc with ctl := 0x10 } .sgo 1 none with fmt := 4, carry := some (15, [1, 2, 3, 4]) }
def decoding : State := streaming decTransfer.desc (some decTransfer)

theorem carried_of (x : Transfer) (b : Nat) (p : Nat → Prop) (h : ∀ i, i < packedIn x b → p (unitOf x b i)) : ∀ m, CarriedBy x b m → p m := by
  rintro m ⟨i, hi, rfl⟩
  exact h i hi

/-- A unit of the tile store inside the first region fits. -/
abbrev InFirst (s : State) (x : Transfer) (dst : Bool) (m : Nat) : Prop :=
  sideKind (x.desc.side dst) = 0 ∧ 0 ≤ placeOf x dst m ∧
    regionOf (s.core x.core).regions (placeOf x dst m).toNat = some region1 ∧ ((region1.base : Int) ≤ placeOf x dst m ∧
      placeOf x dst m < region1.base + 4096 * region1.size ∧ placeOf x dst m + unitSize x.desc x.fmt dst ≤ region1.base + 4096 * region1.size) ∧
    placeOf x dst m % unitBytes region1.fmt = 0 ∧ region1.fmt = if x.desc.dec = true ∧ dst = true then 0 else x.fmt

theorem unit_fits (s : State) (x : Transfer) (dst : Bool) (m : Nat) (h : InFirst s x dst m) : UnitFits s x dst m := by
  unfold UnitFits
  rw [if_pos h.1]
  exact ⟨h.2.1, region1, h.2.2.1, .inl ⟨by decide, fun _ => rfl⟩, h.2.2.2.1, h.2.2.2.2.1, h.2.2.2.2.2⟩

/-- The words that beat 1 uses are those in use; its units fit with word 0, and the first does not with word 0x100. -/
theorem indexed_itself (w : Nat) : Indexed (indexed false [(15, w)]) 0 1 (ixTransfer false [(15, w)]) (ixTransfer false [(15, w)]) := by
  refine ⟨rfl, fun _ => rfl, fun _ => carried_of _ _ _ fun i hi => ⟨fun _ => rfl, fun h => absurd ?_ h⟩⟩
  have hl : level3 (ixTransfer false [(15, w)]).desc (unitOf (ixTransfer false [(15, w)]) 1 i) = 0 :=
    (by decide +kernel : ∀ i, i < 64 → level3 (ixDesc false) ((64 * 1 + i) / (ixDesc false).packedUnit 0) = 0) i (Nat.lt_of_lt_of_le hi (Nat.min_le_left _ _))
  exact ⟨(15, w), List.mem_singleton_self _, by rw [hl]⟩

theorem indexed_fits : BeatFits (indexed false [(15, 0)]) (ixTransfer false [(15, 0)]) false 1 := fun _ =>
  carried_of _ _ _ fun i hi => unit_fits _ _ _ _ ((by decide +kernel : ∀ i, i < 64 →
    InFirst (indexed false [(15, 0)]) (ixTransfer false [(15, 0)]) false (unitOf (ixTransfer false [(15, 0)]) 1 i)) i (Nat.lt_of_lt_of_le hi (Nat.min_le_left _ _)))

theorem indexed_strays : ¬ UnitFits (indexed false [(15, 0x100)]) (ixTransfer false [(15, 0x100)]) false 16 ∧
    CarriedBy (ixTransfer false [(15, 0x100)]) 1 16 ∧ ∀ k, CarriedBy (ixTransfer false [(15, 0x100)]) 1 k → ¬ k < 16 := by
  refine ⟨fun h => ?_, ⟨0, by decide, rfl⟩, carried_of _ _ _ fun i hi => ?_⟩
  · unfold UnitFits at h
    rw [if_pos (by decide +kernel)] at h
    obtain ⟨-, r, hr, -⟩ := h
    exact absurd hr (by rw [(by decide +kernel : regionOf _ _ = none)]; exact fun h => nomatch h)
  · exact (by decide +kernel : ∀ i, i < 64 → ¬ (64 * 1 + i) / 4 < 16) i (Nat.lt_of_lt_of_le hi (Nat.min_le_left _ _))

theorem test_meets_StreamBeats_indexed :
    (Whole (indexed false [(15, 0)]) ∧ ((indexed false [(15, 0)]).engine 0 5).xfer = some (ixTransfer false [(15, 0)]) ∧
      ReadsNext (indexed false [(15, 0)]) (ixTransfer false [(15, 0)]) 1 ∧ ¬ Known (ixDesc false) false ∧
      64 * 1 < (ixTransfer false [(15, 0)]).desc.packedBytes (ixTransfer false [(15, 0)]).fmt) ∧
    (Whole (indexed false []) ∧ (ixDesc false).ix = true ∧ (ixDesc false).pside = false ∧ (indexed false []).halted 0 = false ∧
      ((indexed false []).tile 0).errors = [] ∧ (ixTransfer false []).read < (ixTransfer false []).beats ∧ CarriedBy (ixTransfer false []) 1 16 ∧
      ¬ HasWord (ixTransfer false []) (level3 (ixDesc false) 16)) ∧
    (Whole (indexed true []) ∧ (ixDesc true).ix = true ∧ (ixDesc true).pside = true) ∧
    (Whole decoding ∧ (decoding.engine 0 5).xfer = some decTransfer ∧ ReadsNext decoding decTransfer 1 ∧ decTransfer.desc.dec = true ∧
      Known decTransfer.desc false ∧ 64 * 1 < decTransfer.desc.packedBytes decTransfer.fmt ∧ decTransfer.desc.packedUnit decTransfer.fmt = 4) := by
  refine ⟨⟨whole_of_check ?_, ?_, ⟨?_, ?_, ?_, ?_, ?_⟩, ?_, ?_⟩, ⟨whole_of_check ?_, ?_, ?_, ?_, ?_, ?_, ⟨0, ?_, rfl⟩, ?_⟩, ⟨whole_of_check ?_, ?_⟩,
    ⟨whole_of_check ?_, ?_, ⟨?_, ?_, ?_, ?_, ?_⟩, ?_, .inl ?_, ?_⟩⟩ <;>
    first
      | decide +kernel
      | (rintro (h | h | h) <;> exact absurd h (by decide +kernel))
      | (rintro ⟨e, he, -⟩; exact absurd he List.not_mem_nil)

theorem test_meets_StreamBeats :
    (Live (streaming copyDesc none) ∧ Fresh (streaming copyDesc none) ∧ copyDesc.units ≠ 0 ∧
      StreamSound (streaming copyDesc none) 5 none copyDesc 0 ∧ StreamSound (streaming inDesc none) 5 (some (.v, 632, false)) inDesc 0 ∧
      StreamSound (streaming outDesc none) 5 (some (.w, 639, true)) outDesc 0) ∧
    (Whole (beat1 copyDesc .sgo) ∧ ((beat1 copyDesc .sgo).engine 0 5).xfer = some (transferOf copyDesc .sgo 1 none) ∧
      ReadsNext (beat1 copyDesc .sgo) (transferOf copyDesc .sgo 1 none) 1 ∧ copyDesc.ix = false ∧ copyDesc.dec = false ∧
      ((beat1 copyDesc .sgo).tile 0).errors = [] ∧ sideKind copyDesc.dst = 0) ∧
    (Whole (beat1 inDesc (.input .v 632)) ∧
      ((beat1 inDesc (.input .v 632)).engine 0 5).xfer = some (transferOf inDesc (.input .v 632) 1 none) ∧
      (transferOf inDesc (.input .v 632) 1 none).entered = 1 ∧ (1 : Nat) < (transferOf inDesc (.input .v 632) 1 none).beats ∧
      (1 : Nat) < (transferOf inDesc (.input .v 632) 1 none).popped + 4 ∧ (transferOf inDesc (.input .v 632) 1 none).popped + 4 ≤ 5) ∧
    (Whole (beat1 outDesc (.output .w 639)) ∧
      ((beat1 outDesc (.output .w 639)).engine 0 5).xfer = some (transferOf outDesc (.output .w 639) 1 none) ∧ sideKind outDesc.dst = 0) ∧
    (Whole draining ∧ (draining.tile 0).slot 31 = .draining ∧ (draining.tile 0).referred draining.now 31 = false ∧
      (draining.tile 0).slot 30 ≠ .draining) ∧
    sideKind (0x2000000000000000 : Word) = 1 := by
  refine ⟨⟨live_of _ ?_, ?_, ?_, sound_copy, sound_in, sound_out⟩, ⟨whole_of_check ?_, ?_, ⟨?_, ?_, ?_, ?_, ?_⟩, ?_⟩, ⟨whole_of_check ?_, ?_⟩,
    ⟨whole_of_check ?_, ?_⟩, ⟨whole_of_check ?_, ?_⟩, ?_⟩ <;>
    first
      | decide +kernel | (unfold Fresh; decide +kernel)

/-- One step of one row and one column of INT8 elements, from slot 0 and slot 1. -/
def intShadow : Shadow := [(33, 0x10000), (35, 0x77), (36, 0x100010000), (38, 0x777100101)]

def nestOf (start : Nat) (x : Shadow) : Nest :=
  { id := 4, core := 0, bank0 := false, shadow := x, nantrap := false, commit := 990, start := start, steps := 1, time := 2, sampled := 0 }

/-- Core 0 of a compute phase with an array. -/
def arrayed (a : ArrayUnit) : State := withTile (usual .x 0 7 0 0 0) fun t => { t with array := a, slots := [(0, .claimed), (1, .claimed)] }

def shadowed : ArrayUnit := { ArrayUnit.reset with shadow := intShadow, next := 5 }
def withNest (start : Nat) : ArrayUnit := { shadowed with nests := [nestOf start intShadow] }

/-- A sheaf reduction of core 0's sheaf that `n` members have joined. -/
def joined (n : Nat) : State :=
  { arrayed ArrayUnit.reset with mreds := Table.set Mred.none [] 0 { arrived := (List.range n).map fun i => (i + 1, 2, 3, 990), q := none, rows := [] } }

/-- Core 1 of a split tile. -/
def second : State := withCore (usual .x 0 7 0 0 0) fun x => { x with split := true, coreNo := 1 }

/-- The shadow is sound in a tile that claims its slots. -/
theorem sound_nest (s : State) (h : (mine s).claims 0 = true ∧ (mine s).claims 1 = true) : NestSound s intShadow where
  pair := by decide +kernel
  reserved := by decide +kernel
  level := by decide +kernel
  trans := by decide +kernel
  edges := by decide +kernel
  places := by decide +kernel
  operands := fun j hj => by
    have h0 : j = 0 := Nat.lt_one_iff.1 ((by decide +kernel : Shadow.steps intShadow = 1) ▸ hj)
    subst h0
    exact ⟨⟨by decide, by decide, h.1, by decide +kernel⟩, ⟨by decide, by decide, h.2, by decide +kernel⟩⟩

theorem test_meets_ArrayForms :
    (Live (arrayed shadowed) ∧ OwnArray (arrayed shadowed) ∧ ¬ Exchanges (arrayed shadowed) ∧ Fresh (arrayed shadowed) ∧
      NestSound (arrayed shadowed) (arrayOf (arrayed shadowed)).shadow ∧ ¬ NestQueued (arrayed shadowed) ∧
      RoomFor (arrayed shadowed) (16 * (Shadow.releases (arrayOf (arrayed shadowed)).shadow true true).length) ∧
      ArrayIdle (arrayed shadowed)) ∧
    (Live (arrayed (withNest 1001)) ∧ NestSound (arrayed (withNest 1001)) (arrayOf (arrayed (withNest 1001))).shadow ∧
      NestQueued (arrayed (withNest 1001)) ∧ ¬ ArrayIdle (arrayed (withNest 1001))) ∧
    (Shadow.shapeCause (arrayOf (arrayed { shadowed with shadow := [(35, 0x71)] })).shadow).isSome = true ∧
    (Live (joined 0) ∧ Fresh (joined 0) ∧ (Table.get Mred.none (joined 0).mreds (sheafOf 0)).arrived.length < 3) ∧
    (Live (joined 3) ∧ Fresh (joined 3) ∧ (∀ e ∈ (Table.get Mred.none (joined 3).mreds (sheafOf 0)).arrived, e.1 ≠ sheafPlace 0) ∧
      (Table.get Mred.none (joined 3).mreds (sheafOf 0)).arrived.length = 3) ∧
    (Live (withCore (joined 1) fun k => { k with gsize := 1 }) ∧ Fresh (withCore (joined 1) fun k => { k with gsize := 1 }) ∧
      (withCore (joined 1) fun k => { k with gsize := 1 }).me.gsize ≠ 0) ∧
    ¬ OwnArray second := by
  refine ⟨⟨live_of _ ?_, .inl ?_, ?_, ?_, sound_nest _ ?_, ?_, .inl ?_, ?_⟩, ⟨live_of _ ?_, sound_nest _ ?_, ?_, ?_⟩, ?_,
    ⟨live_of _ ?_, ?_, ?_⟩, ⟨live_of _ ?_, ?_, ?_⟩, ⟨live_of _ ?_, ?_, ?_⟩, ?_⟩ <;>
    first
      | decide +kernel | (unfold Exchanges; decide +kernel) | (unfold Fresh; decide +kernel) | (unfold NestQueued; decide +kernel)
      | (unfold ArrayIdle; decide +kernel) | (unfold OwnArray; decide +kernel)

/-- What the step has sampled. -/
def sampled : StepOperands := { rows := [List.replicate 16 (some 3)], cols := [List.replicate 16 (some 5)] }

def clearing : ArrayUnit := { ArrayUnit.reset with clears := [{ id := 6, acc := 15, due := 1000, issued := 996, bank0 := true, seen := false }] }

/-- A reduction that all four have joined, its rows being sampled. -/
def merging : State :=
  { arrayed ArrayUnit.reset with
    mreds := [(0, { arrived := [(0, 2, 3, 990), (1, 0, 3, 990), (2, 128, 3, 990), (3, 129, 3, 990)], q := some 995, rows := [] })] }

/-- Row 0 of every member but the second has been sampled. -/
def rowsIn : List (Nat × List Nat) := [0, 2, 3].map fun k => (k, List.replicate 64 k)

theorem test_meets_ArraySteps :
    (Live (arrayed shadowed) ∧ Fresh (arrayed shadowed) ∧ NestSound (arrayed shadowed) (arrayOf (arrayed shadowed)).shadow ∧
      ¬ NestQueued (arrayed shadowed)) ∧
    (Whole (arrayed (withNest 1000)) ∧ ((arrayed (withNest 1000)).tile 0).array.nest 4 = some (nestOf 1000 intShadow) ∧
      (nestOf 1000 intShadow).steps ≠ 0 ∧ (arrayed (withNest 1000)).halted (nestOf 1000 intShadow).core = false ∧
      (nestOf 1000 intShadow).nantrap = false ∧ Clean (arrayed (withNest 1000)) 0) ∧
    (∃ x : Nest, ((arrayed { shadowed with nests := [{ nestOf 1000 intShadow with steps := 0 }] }).tile 0).array.nest 4 = some x ∧ x.steps = 0) ∧
    (Whole (arrayed clearing) ∧ (((arrayed clearing).tile 0).array.clears.find? (fun e => decide (e.id = 6))).isSome = true) ∧
    (Whole (arrayed { shadowed with swaps := [9] }) ∧ 9 ∈ ((arrayed { shadowed with swaps := [9] }).tile 0).array.swaps ∧
      ((arrayed { shadowed with swaps := [9] }).tile 0).array.wrote < (arrayed { shadowed with swaps := [9] }).now) ∧
    (Whole (arrayed { shadowed with swaps := [9], wrote := 1000 }) ∧
      (arrayed { shadowed with swaps := [9], wrote := 1000 }).now ≤ ((arrayed { shadowed with swaps := [9], wrote := 1000 }).tile 0).array.wrote) ∧
    ((Table.get Mred.none merging.mreds 0).q = some 995 ∧ (Table.get (0, 0, 0) (Table.get Mred.none merging.mreds 0).arrived 1).1 = 0 ∧
      merging.halted 0 = false ∧ Clean merging 0) ∧
    (∀ k, k < 4 → k ≠ 1 → ∃ e ∈ rowsIn, e.1 = 0 * 4 + k) ∧ Whole { merging with mreds := [(0, { (Table.get Mred.none merging.mreds 0) with rows := rowsIn })] } ∧
    Shadow.int ((arrayed ArrayUnit.reset).tile 0).array.shadow = false ∧ Whole (arrayed ArrayUnit.reset) ∧
    Whole (arrayed shadowed) ∧ Shadow.int ((arrayed shadowed).tile 0).array.shadow = true := by
  refine ⟨⟨live_of _ ?_, ?_, sound_nest _ ?_, ?_⟩, ⟨whole_of_check ?_, ?_, ?_, ?_, ?_, ?_⟩, ⟨_, rfl, rfl⟩, ⟨whole_of_check ?_, ?_⟩,
    ⟨whole_of_check ?_, ?_⟩, ⟨whole_of_check ?_, ?_⟩, ?_, ?_, whole_of_check ?_, ?_,
    whole_of_check ?_, whole_of_check ?_, ?_⟩ <;>
    first
      | decide +kernel | (unfold Fresh; decide +kernel) | (unfold NestQueued; decide +kernel) | (unfold Clean; decide +kernel)

/-- The nest's accumulators are still to be cleared. -/
def cleared : ArrayUnit :=
  { withNest 1000 with clears := [{ id := 3, acc := 0, due := 1005, issued := 989, bank0 := false, seen := false }] }

theorem test_meets_MatrixUpdate :
    Whole (arrayed (withNest 1000)) ∧ ((arrayed (withNest 1000)).tile 0).array.nest 4 = some (nestOf 1000 intShadow) ∧
    (nestOf 1000 intShadow).nantrap = false ∧ Sampled intShadow (Shadow.step intShadow 0) sampled ∧ 0 ≤ (Shadow.step intShadow 0).tile ∧
    (Shadow.step intShadow 0).tile ≤ 15 ∧ 0 ≤ (Shadow.step intShadow 0).row ∧
    (Shadow.step intShadow 0).row + (Shadow.step intShadow 0).mr ≤ 64 ∧ (Shadow.step intShadow 0).nc ≤ 64 ∧
    ¬ ToClear (arrayed (withNest 1000)) 0 (nestOf 1000 intShadow) 0 ∧
    ToClear (arrayed cleared) 0 (nestOf 1000 intShadow) 0 := by
  refine ⟨whole_of_check ?_, ?_, rfl, ⟨?_, ?_, ?_, ?_⟩, ?_, ?_, ?_, ?_, ?_, ?_,
    { id := 3, acc := 0, due := 1005, issued := 989, bank0 := false, seen := false }, ?_⟩ <;>
    first
      | decide +kernel | (unfold ToClear; decide +kernel)

/-! ## Quays and collectives -/

/-- The form's operands: queue 3, x(XD) is x3, x(XA) is x1, x(XB) is x2, token id 2. -/
def quayOp (tp tw : Bool) : QuayOp := { q := 3, xd := 3, xa := 1, xb := 2, tp := tp, tw := tw, tid := 2, bound := 5 }

/-- Handle 0x00_0207 of context 0 is open on a page of FMT `fmt`; x2 is `b` (a count and a tile-store address), x3 is `d`. -/
def quayWith (phase fmt : Nat) (b d : Word) (x : Tile → Tile) : State :=
  { withTile (withCore (usual .x phase 0x0002070000000000 b d 0) fun k =>
      { k with regions := regions ++ [{ base := 0x10000, size := 1, ro := false, kind := 0, fmt := 5 }] }) x with
    handles := [(2, { Handle.reset with base := 0x200000, len := 64, gen := 7, state := .opened })]
    pages := [(1, BitVec.ofNat 64 (0x8000000000000003 + fmt * 2 ^ 56))] }

/-- x2 names two units at 0x1000. -/
def atQuay (phase : Nat) (x : Tile → Tile) : State := quayWith phase 0 0x0000000200001000 0x0005000000000000 x

/-- A gather of two rows of one unit by the indices at 0x1800, and of twenty; an atomic on two elements at 0x10000. -/
def atGather (n : Nat) : State := quayWith 1 0 (BitVec.ofNat 64 (n * 2 ^ 32 + 0x1000)) 0x0000000100001800 id
def atAtom : State := quayWith 1 5 0x0000000200010000 0 id

/-- The forms' operands hold on these states. -/
theorem handle_end (s : State) (h off n al : Nat) (write : Bool) (fmt : Nat) (ho : HandleOpen s h) (ha : off % al = 0)
    (hl : off + n ≤ 64 * (s.handle (ownPart s).queue (h / 256)).len) (hr : (s.handle (ownPart s).queue (h / 256)).ro = false)
    (hp : ∀ i, i < n → PageSuits (s.leaf (ownPart s).queue ((s.handle (ownPart s).queue (h / 256)).base + off + i)) write fmt) :
    HandleEnd s h off n al write fmt := ⟨ho, ha, hl, fun _ => hr, hp⟩

theorem sound_copy_quay (s : State) (h : s = atQuay 1 id) (get : Bool) : CopySound s (quayOp true false) get where
  store := by
    subst h
    refine ⟨by decide +kernel, fun _ => ⟨region1, ⟨by decide +kernel, by decide +kernel⟩, ?_⟩⟩
    cases get
    · exact (by decide : region1.kind ≤ 2)
    · exact (⟨by decide, rfl⟩ : Storable region1)
  tier := by
    subst h
    refine handle_end _ _ _ _ _ _ _ (by unfold HandleOpen; decide +kernel) (by decide +kernel) (by decide +kernel) (by decide +kernel) ?_
    unfold PageSuits
    cases get <;> decide +kernel

theorem sound_gather : GatherSound (atGather 2) (quayOp true false) where
  store := ⟨by decide +kernel, fun _ => ⟨region1, ⟨by decide +kernel, by decide +kernel⟩, (⟨by decide, rfl⟩ : Storable region1)⟩⟩
  row := by decide +kernel
  list := ⟨by decide +kernel, fun _ => ⟨region1, ⟨by decide +kernel, by decide +kernel⟩, (by decide : region1.kind ≤ 2)⟩⟩
  opened := by unfold HandleOpen; decide +kernel
  rows := fun i _ hi => by
    have h2 : countIn (atGather 2) (quayOp true false) = 2 := by decide +kernel
    rw [h2] at hi
    have h0 : i = 0 ∨ i = 1 := by omega
    rcases h0 with rfl | rfl <;>
    · refine handle_end _ _ _ _ _ _ _ (by unfold HandleOpen; decide +kernel) (by decide +kernel) (by decide +kernel) (by decide +kernel) ?_
      unfold PageSuits
      decide +kernel
  clean := by unfold NoErrors; decide +kernel
  space := by decide +kernel

def atomRegion : Region := { base := 0x10000, size := 1, ro := false, kind := 0, fmt := 5 }

theorem sound_atom : AtomSound atAtom (quayOp true false) false where
  store := ⟨by decide +kernel, fun _ => ⟨atomRegion, ⟨by decide +kernel, by decide +kernel⟩, (⟨by decide, rfl⟩ : Storable atomRegion)⟩⟩
  count := by decide +kernel
  unit := by decide +kernel
  tier := by
    refine handle_end _ _ _ _ _ _ _ (by unfold HandleOpen; decide +kernel) (by decide +kernel) (by decide +kernel) (by decide +kernel) ?_
    unfold PageSuits
    decide +kernel
  format := by decide +kernel

def token (done : Option (Nat × Nat)) : Token := { id := 8, promise := 1200, pushed := done }
def withTokens (ts : List Token) : State := atQuay 1 fun x => { x with tokens := Table.set [] [] 2 ts }
def withStatus (done : Option (Nat × Nat)) : State := atQuay 1 fun x =>
  { x with quays := [(3, { QuayQueue.reset with status := [(5, some { id := 8, promise := 1000, done := done })] })] }

/-- Serial 5 is complete; an earlier get of the queue still has a unit to write, or has written its last one on this cycle. -/
def behind (tasks : List QuayTask) (w : Nat) : State := atQuay 1 fun x =>
  { x with quays := [(3, { QuayQueue.reset with tasks := tasks, status := [(4, some { id := 7, promise := 1000, done := some (0, w) }),
    (5, some { id := 8, promise := 1000, done := some (0, 980) })] })] }

theorem earlier_written : EarlierWritten (behind [] 990) 3 8 := by
  refine ⟨fun j hj => absurd hj ?_, fun e he st r h1 h2 h3 => ?_⟩
  · exact (by decide +kernel : (quayOf (behind [] 990) 3).tasks = []) ▸ List.not_mem_nil
  · have hs : (quayOf (behind [] 990) 3).status =
        [(4, some { id := 7, promise := 1000, done := some (0, 990) }), (5, some { id := 8, promise := 1000, done := some (0, 980) })] := by
      decide +kernel
    have hn : (behind [] 990).now = 1000 := rfl
    rw [hs] at he
    simp only [List.mem_cons, List.not_mem_nil, or_false] at he
    rw [hn]
    rcases he with rfl | rfl <;> (cases h1; cases h3; decide)

theorem not_earlier_written : ¬ EarlierWritten (behind [] 1000) 3 8 := fun h =>
  absurd (h.2 (4, some { id := 7, promise := 1000, done := some (0, 1000) }) (by decide +kernel) _ _ rfl (by decide) rfl) (by decide)

theorem test_meets_QuayForms :
    (Live (atQuay 1 id) ∧ Exchanges (atQuay 1 id) ∧ HasQuay (atQuay 1 id) ∧ Fresh (atQuay 1 id) ∧
      (quayUnits? (.qget (quayOp true false)) (atQuay 1 id)).isSome = true ∧
      QuaySound (.qget (quayOp true false)) (atQuay 1 id) ∧ QuaySound (.qput (quayOp true false)) (atQuay 1 id) ∧
      QuayRoom (atQuay 1 id) (quayOp true false) ∧ ¬ QuayRoom (atQuay 1 id) (quayOp true true) ∧ tokensOf (atQuay 1 id) 2 = [] ∧
      ((atQuay 1 id).atomCause (quayOp true false) false).isSome = true ∧
      Table.get none (quayOf (atQuay 1 id) 3).status (((atQuay 1 id).x 3).toNat / 2 ^ 48 % 2 ^ 8) = none) ∧
    (Live (atGather 2) ∧ Exchanges (atGather 2) ∧ HasQuay (atGather 2) ∧ Fresh (atGather 2) ∧ QuaySound (.qgath (quayOp true false)) (atGather 2) ∧
      rowsOf (.qgath (quayOp true false)) (atGather 2) ≤ 16 ∧ 16 < rowsOf (.qgath (quayOp true false)) (atGather 20)) ∧
    (Live atAtom ∧ Exchanges atAtom ∧ HasQuay atAtom ∧ Fresh atAtom ∧ QuaySound (.qatomAdd (quayOp true false)) atAtom ∧
      QuayRoom atAtom (quayOp true false)) ∧
    (Live (withTokens [token none]) ∧ tokensOf (withTokens [token none]) 2 = [token none] ∧
      tokensOf (withTokens [token (some (0, 990))]) 2 = [token (some (0, 990))]) ∧
    (Issuing (withStatus none) ∧ (Table.get none (quayOf (withStatus none) 3).status (((withStatus none).x 3).toNat / 2 ^ 48 % 2 ^ 8)).isSome = true) ∧
    (EarlierWritten (behind [] 990) 3 8 ∧ ¬ EarlierWritten (behind [] 1000) 3 8 ∧
      Table.get none (quayOf (behind [] 1000) 3).status 5 = some { id := 8, promise := 1000, done := some (0, 980) }) ∧
    ¬ Exchanges (atQuay 0 id) ∧
    Exchanges (stateOf 2 .x (coreOf 1 (regsOf 0 0 0 0)) Tile.idle partOf1) ∧ ¬ HasQuay (stateOf 2 .x (coreOf 1 (regsOf 0 0 0 0)) Tile.idle partOf1) := by
  refine ⟨⟨live_of _ ?_, ?_, ⟨?_, .inl ?_⟩, ?_, ?_, sound_copy_quay _ rfl true, sound_copy_quay _ rfl false, ?_, ?_, ?_, ?_, ?_⟩,
    ⟨live_of _ ?_, ?_, ⟨?_, .inl ?_⟩, ?_, sound_gather, ?_, ?_⟩, ⟨live_of _ ?_, ?_, ⟨?_, .inl ?_⟩, ?_, sound_atom, ?_⟩,
    ⟨live_of _ ?_, ?_⟩, ⟨issuing_of _ ?_, ?_⟩, ⟨earlier_written, not_earlier_written, ?_⟩, ?_, ?_, ?_⟩ <;>
    first
      | decide +kernel | (unfold Exchanges; decide +kernel) | (unfold Fresh; decide +kernel) | (unfold QuayRoom; decide +kernel)
      | (unfold HasQuay OwnArray; decide +kernel)

/-- A queue with one operation. -/
def taskOf (kind : QuayKind) : QuayTask :=
  { id := 8, serial := 5, core := 0, kind := kind, store := 0x1000, va := 0x200000, handle := 0x207, ctx := 0, row := 1, idx := [], units := 2,
    elems := 16, frames := [(1, 0x8000000000000003)], tp := true, tw := false, tid := 2, after := none, promise := 1100, slots := [1000, 1002],
    left := 1, port := 1, mark := 0, list := 0, tables := [], start := some 990, first := 0, poison := 0, stop := false }
def serving (kind : QuayKind) : State := atQuay 1 fun x =>
  { x with quays := [(3, { QuayQueue.reset with tasks := [taskOf kind], serial := 6, status := [(5, some { id := 8, promise := 1100, done := none })] })],
           tokens := [(2, [token none])] }
def freeing (n : Nat) : State :=
  { atQuay 1 id with handles := [(2, { Handle.reset with base := 0x200000, len := 64, gen := 7, state := .freeing, count := n })] }

/-- Nothing keeps the one operation of the queue from its place. -/
theorem may_reach (kind : QuayKind) (pa : Nat) (hc : (serving kind).cardHeld pa = false)
    (hb : ∀ j ∈ ((serving kind).quay 0 3).tasks, j.blocks (taskOf kind) = false) : MayReach (serving kind) 0 3 (taskOf kind) pa := ⟨hc, rfl, hb⟩

/-- Card 2 has moved as many units as it has spares. -/
def worn : State := { atQuay 1 id with cardSpares := [(2, cardSpareUnits 2)] }

theorem test_meets_QuayUnits :
    (QuaySound (.qget (quayOp true false)) (atQuay 1 id) ∧ QuayRoom (atQuay 1 id) (quayOp true false) ∧
      rowsOf (.qget (quayOp true false)) (atQuay 1 id) ≤ 16) ∧
    (Whole (serving .get) ∧ ((serving .get).quay 0 3).task 5 = some (taskOf .get) ∧
      MayPerform (serving .get) 0 3 (taskOf .get) ((taskOf .get).phys ((taskOf .get).unitVa 1)) ∧ (taskOf .get).stop = false ∧ (taskOf .get).left ≤ 1) ∧
    (Whole (serving .gath) ∧ ((serving .gath).quay 0 3).task 5 = some (taskOf .gath) ∧
      MayPerform (serving .gath) 0 3 (taskOf .gath) ((taskOf .gath).phys ((taskOf .gath).unitVa 0)) ∧
      1 / max (taskOf .gath).row 1 < { taskOf .gath with idx := [4, 9] }.idx.length) ∧
    (Whole (serving .put) ∧ ((serving .put).quay 0 3).task 5 = some (taskOf .put) ∧ (serving .put).quayHeld 0 (taskOf .put) = false ∧
      MayReach (serving .put) 0 3 (taskOf .put) ((taskOf .put).phys ((taskOf .put).unitVa 0)) ∧ Clean (serving .put) 0 ∧
      (taskOf .put).slots[0 + 1]?.isSome = true) ∧
    (Whole (serving (.atom 9)) ∧ ((serving (.atom 9)).quay 0 3).task 5 = some (taskOf (.atom 9)) ∧ (9 : Nat) < 10 ∧ (taskOf (.atom 9)).elems ≤ 16 ∧
      MayPerform (serving (.atom 9)) 0 3 (taskOf (.atom 9)) ((taskOf (.atom 9)).phys (taskOf (.atom 9)).va) ∧ Clean (serving (.atom 9)) 0) ∧
    (Whole (freeing 0) ∧ ((freeing 0).handle 0 2).state = .freeing ∧ ((freeing 0).handle 0 2).count = 0) ∧
    (Whole (freeing 1) ∧ ((freeing 1).handle 0 2).count ≠ 0 ∧ ((freeing 1).handle 0 2).count ≤ 1) ∧
    (Whole worn ∧ cardSpareUnits 2 ≤ Table.get 0 worn.cardSpares 2 ∧ Table.get 0 worn.cardSpares 3 < cardSpareUnits 3) := by
  refine ⟨⟨sound_copy_quay _ rfl true, ?_, ?_⟩, ⟨whole_of_check ?_, ?_, ⟨?_, may_reach _ _ ?_ ?_, ?_⟩, ?_⟩,
    ⟨whole_of_check ?_, ?_, ⟨?_, may_reach _ _ ?_ ?_, ?_⟩, ?_⟩,
    ⟨whole_of_check ?_, ?_, ?_, may_reach _ _ ?_ ?_, ?_, ?_⟩, ⟨whole_of_check ?_, ?_, ?_, ?_, ⟨?_, may_reach _ _ ?_ ?_, ?_⟩, ?_⟩,
    ⟨whole_of_check ?_, ?_⟩, ⟨whole_of_check ?_, ?_⟩, ⟨whole_of_check ?_, ?_⟩⟩ <;>
    first
      | decide +kernel | (unfold QuayRoom; decide +kernel) | (unfold Clean; decide +kernel)

/-- Core 0 in an exchange phase with tickets outstanding and outcomes known; x1 names a descriptor at 0x2FC0, x2 ticket 5. -/
def collecting (colls : List Nat) (outs : Table (Option (Nat × Nat))) : State :=
  withTile (usual .x 1 0x2FC0 5 0 0) fun x => { x with colls := colls, outcomes := outs }

/-- It with a sound descriptor in the store: an all-reduce by addition of 64 bytes of INT32 at 0x1000, staged at 0x14000. -/
def sound : State :=
  withCore (withTile (collecting [] []) fun x => { x with store := [(0x2FC2, 0x50), (0x2FC9, 0x10), (0x2FD0, 0x40), (0x2FD9, 0x40), (0x2FDA, 0x01)] })
    fun k => { k with regions := regions ++ [{ base := 0x14000, size := 1, ro := false, kind := 2, fmt := 0 }] }

/-- It with a descriptor of the group that expects version 1; and beside a collective that has aborted before its last part. -/
def soundStale : State :=
  withTile sound fun x => { x with store := [(0x2FC0, 0x10), (0x2FC2, 0x50), (0x2FC4, 0x01), (0x2FC9, 0x10), (0x2FD0, 0x40), (0x2FD9, 0x40), (0x2FDA, 0x01)] }
def soundLate : State :=
  { sound with colls := [(3, { Coll.none with pid := 1, parts := [{ core := 2, ticket := 5, desc := [], rank := 1, ctx := 0, frames := [], zeroed := 1, gone := true }],
                                              aborted := some (2, 990) })] }

theorem test_meets_CollectiveForms :
    (Live (collecting [] []) ∧ Exchanges (collecting [] []) ∧ Fresh (collecting [] []) ∧
      Inside (collecting [] []) { base := 0x1000, size := 2, ro := false, kind := 0, fmt := 0 } (((collecting [] []).x 1).toNat % 2 ^ 24) 64 64 ∧
      (mine (collecting [] [])).colls.length < 16 ∧
      ((collecting [] []).descCause 0 (((collecting [] []).x 1).toNat % 2 ^ 24) (descAt (collecting [] []) 1)).isSome = true ∧
      Table.get none (mine (collecting [] [])).outcomes 5 = none ∧ 5 ∉ (mine (collecting [] [])).colls) ∧
    CollSound (collecting [] []) 1 ∧
    (CollSound soundStale 1 ∧ Live soundStale ∧ soundStale.colls = [] ∧ soundStale.descCause 0 ((soundStale.x 1).toNat % 2 ^ 24) (descAt soundStale 1) = none ∧
      descGroup (descAt soundStale 1) = true ∧ descExptop (descAt soundStale 1) ≠ soundStale.topver) ∧
    (Live soundLate ∧ soundLate.descCause 0 ((soundLate.x 1).toNat % 2 ^ 24) (descAt soundLate 1) = none ∧
      soundLate.joinable 0 1 (descAt soundLate 1) = some 3 ∧ (soundLate.coll 3).aborted.isSome = true) ∧
    (Live sound ∧ Fresh sound ∧ CollSound sound 1 ∧ sound.descCause 0 ((sound.x 1).toNat % 2 ^ 24) (descAt sound 1) = none ∧ sound.me.part.isSome = true) ∧
    (Live (collecting (List.range 16) []) ∧ 16 ≤ (mine (collecting (List.range 16) [])).colls.length ∧
      5 ∈ (mine (collecting (List.range 16) [])).colls) ∧
    (Live (collecting [] [(5, some (0, 990))]) ∧ Table.get none (mine (collecting [] [(5, some (0, 990))])).outcomes 5 = some (0, 990)) ∧
    ¬ Exchanges (usual .x 0 0 0 0 0) := by
  refine ⟨⟨live_of _ ?_, ?_, ?_, ⟨?_, ?_⟩, ?_⟩, ⟨?_, ⟨region1, ⟨?_, ?_⟩, ?_⟩, ?_, ?_⟩,
    ⟨⟨?_, ⟨region1, ⟨?_, ?_⟩, ?_⟩, ?_, ?_⟩, live_of _ ?_, ?_⟩, ⟨live_of _ ?_, ?_⟩,
    ⟨live_of _ ?_, ?_, ⟨?_, ⟨region1, ⟨?_, ?_⟩, ?_⟩, ?_, ?_⟩, ?_⟩, ⟨live_of _ ?_, ?_⟩, ⟨live_of _ ?_, ?_⟩, ?_⟩ <;>
    first
      | decide +kernel | (unfold Exchanges; decide +kernel) | (unfold Fresh; decide +kernel) | (unfold NoErrors; decide +kernel)

/-- Collective 3 of partition 1, in which core 0 alone takes part with the sound descriptor: before its commit, after it, and aborted. -/
def joinedBy (k : CollPart) (commit : Bool) (aborted : Option (Nat × Nat)) (data : List (List Byte)) : State :=
  { sound with colls := [(3, { pid := 1, group := false, ph := 0, members := [0], count := 1, parts := [k], data := data, remote := 0, stale := false,
                               commit := commit, aborted := aborted })], nextColl := 4 }
def partIn : CollPart := { core := 0, ticket := 5, desc := descAt sound 1, rank := 0, ctx := 0, frames := [], zeroed := 0, gone := false }

/-- Its participant has stopped. -/
def halting : State := withCore (joinedBy partIn false none []) fun k => { k with status := .stopped }

theorem test_meets_CollectiveSteps :
    (Whole (joinedBy partIn false none []) ∧ ((joinedBy partIn false none []).coll 3).parts = [partIn] ∧
      ((joinedBy partIn false none []).coll 3).aborted = none ∧ ((joinedBy partIn false none []).coll 3).commit = false ∧
      Running (joinedBy partIn false none []) ((joinedBy partIn false none []).coll 3) ∧ (joinedBy partIn false none []).engineTaken 3 = false ∧
      Clean (joinedBy partIn false none []) (partIn.core / 2)) ∧
    (Whole halting ∧ (halting.coll 3).parts = [partIn] ∧ (halting.coll 3).aborted = none ∧ (halting.coll 3).commit = false ∧
      halting.halted partIn.core = true) ∧
    (CollSound sound 1 ∧ Table.get none (mine (collecting [] [(5, some (0, 990))])).outcomes (((collecting [] [(5, some (0, 990))]).x 2).toNat % 2 ^ 8) = some (0, 990)) ∧
    (Whole (joinedBy partIn true none [List.replicate 64 1]) ∧ ((joinedBy partIn true none [List.replicate 64 1]).coll 3).parts = [partIn] ∧
      descNamedT partIn.desc = false ∧ descKind partIn.desc ≤ 3 ∧ (collResult partIn.desc [List.replicate 64 1] 0).2.length = 64) ∧
    ((joinedBy partIn false none []).coll 9).parts = [] ∧
    ((List.replicate 8 (1 : Byte)).length = 4 * 2 ∧ ∀ e ∈ [List.replicate 8 (2 : Byte)], e.length = 4 * 2) := by
  have hp : ((joinedBy partIn false none []).coll 3).parts = [partIn] := by decide +kernel
  refine ⟨⟨whole_of_check ?_, ?_, ?_, ?_, ⟨?_, ?_⟩, ?_, ?_⟩, ⟨whole_of_check ?_, ?_⟩, ⟨⟨?_, ⟨region1, ⟨?_, ?_⟩, ?_⟩, ?_, ?_⟩, ?_⟩, ⟨whole_of_check ?_, ?_⟩, ?_, ?_⟩ <;>
    first
      | decide +kernel | (unfold Exchanges; decide +kernel) | (unfold Clean; decide +kernel) | (unfold NoErrors; decide +kernel)
      | (rw [hp]; decide +kernel)

/-- Beside it another collective of the tile, whose contributions are being sampled. -/
def besideBusy (aborted : Option (Nat × Nat)) : State :=
  { joinedBy partIn false aborted [] with
    colls := (joinedBy partIn false aborted []).colls ++ [(4, { (joinedBy partIn false none [[1]]).coll 3 with ph := 2 })] }

theorem test_meets_CollectiveSteps_engine :
    (Whole (besideBusy none) ∧ Running (besideBusy none) ((besideBusy none).coll 3) ∧ ((besideBusy none).coll 3).commit = false ∧
      ((besideBusy none).coll 3).data = [] ∧ (besideBusy none).engineTaken 3 = true) ∧
    (Whole (joinedBy partIn false none [List.replicate 64 1]) ∧
      Running (joinedBy partIn false none [List.replicate 64 1]) ((joinedBy partIn false none [List.replicate 64 1]).coll 3) ∧
      ((joinedBy partIn false none [List.replicate 64 1]).coll 3).commit = false ∧
      Clean (joinedBy partIn false none [List.replicate 64 1]) (partIn.core / 2)) ∧
    (Whole (besideBusy (some (2, 990))) ∧ ((besideBusy (some (2, 990))).coll 3).aborted = some (2, 990) ∧
      ((besideBusy (some (2, 990))).coll 3).parts[0]? = some partIn ∧ (besideBusy (some (2, 990))).engineBusy 3 (partIn.core / 2) = true) ∧
    (Whole (joinedBy partIn false (some (2, 990)) []) ∧ ((joinedBy partIn false (some (2, 990)) []).coll 3).aborted = some (2, 990) ∧
      ((joinedBy partIn false (some (2, 990)) []).coll 3).parts[0]? = some partIn ∧
      (joinedBy partIn false (some (2, 990)) []).engineBusy 3 (partIn.core / 2) = false ∧ descNamedT partIn.desc = false) := by
  have hp : ((besideBusy none).coll 3).parts = [partIn] := by decide +kernel
  have hq : ((joinedBy partIn false none [List.replicate 64 1]).coll 3).parts = [partIn] := by decide +kernel
  refine ⟨⟨whole_of_check ?_, ⟨?_, ?_⟩, ?_⟩, ⟨whole_of_check ?_, ⟨?_, ?_⟩, ?_, ?_⟩, ⟨whole_of_check ?_, ?_⟩, ⟨whole_of_check ?_, ?_⟩⟩ <;>
    first | decide +kernel | (rw [hp]; decide +kernel) | (rw [hq]; decide +kernel) | (unfold Clean; decide +kernel)

/-! ## Optical circuits -/

/-- Core 4, on the port tile of lane 1, with entry 5 of its table; x1 asks for four flits at 0x1000 through it. -/
def lit (kind : Nat) (c : OptChan) (l : Lane) (windowed : Bool) : State :=
  withCore (stateOf 4 .x (coreOf 1 (regsOf 0x0000000405001000 0 7 0))
    { Tile.idle with opts := Table.set OptChan.reset [] 5 { c with entry := BitVec.ofNat 128 (kind + 8 * 2 ^ 32 + 0x4000 * 2 ^ 48 + 9 * 2 ^ 74) }, lane := l }
    partOf1) fun k => { k with windowed := windowed }

/-- A message of entry 5 on its way, of which flit 3 leaves next. -/
def optMsg : OptMsg :=
  { id := 2, issue := 900, pmod := 0x3FFFF, plane := 1, pent := 9, src := 0x1000, off := 0, n := 8, next := 3, plan := 904, base := 0, first := 904,
    demand := false, stalled := false }
def busyLane (ms : List OptMsg) : Lane := { Lane.reset with msgs := ms, next := 20 }

/-- OSEND and ORECV of four flits through entry 5 on lane 1. -/
theorem sound_osend : OsendSound (lit 1 OptChan.reset Lane.reset false) 1 1 4 0x1000 where
  phase := by unfold Exchanges; rfl
  lane := ⟨⟨by decide, .inl ⟨by decide, by decide⟩⟩, by decide, .inl rfl⟩
  kind := ⟨by decide +kernel, .inl (by decide +kernel)⟩
  length := by decide +kernel
  source := ⟨region1, ⟨by decide +kernel, by decide +kernel⟩, by decide⟩

theorem sound_orecv (c : OptChan) (w : Bool) (h : optKind (optWord (lit 2 c Lane.reset w) 1) = 2 ∧ 4 ≤ optLen (optWord (lit 2 c Lane.reset w) 1)) :
    OrecvSound (lit 2 c Lane.reset w) 1 1 4 where
  phase := by unfold Exchanges; rfl
  lane := by
    have hc : (lit 2 c Lane.reset w).latch.core = 4 := rfl
    unfold HasLane OwnArray
    rw [hc]
    exact ⟨⟨by decide, .inl ⟨by decide, by decide⟩⟩, by decide, .inl rfl⟩
  kind := ⟨(by decide : (0x0000000405001000 : Word).toNat / 2 ^ 24 % 2 ^ 8 < 64), .inl h.1⟩
  length := h.2

theorem test_meets_OpticalForms :
    OsendSound (lit 1 OptChan.reset Lane.reset false) 1 1 4 0x1000 ∧
    (OrecvSound (lit 2 { OptChan.reset with arr := 4 } Lane.reset false) 1 1 4 ∧ OrecvSound (lit 2 OptChan.reset Lane.reset true) 1 1 4 ∧
      OrecvSound (lit 2 { OptChan.reset with stale := 1 } Lane.reset false) 1 1 4) ∧
    (PortTile (lit 2 OptChan.reset Lane.reset false) ∧ ¬ OptKind (lit 2 OptChan.reset Lane.reset false) 1 1 3 ∧
      ¬ OptKind (lit 1 OptChan.reset Lane.reset false) 1 2 4 ∧ ¬ PortTile (stateOf 2 .x (coreOf 1 (regsOf 0 0 0 0)) Tile.idle partOf1)) ∧
    (Live (lit 1 OptChan.reset Lane.reset false) ∧ Exchanges (lit 1 OptChan.reset Lane.reset false) ∧
      HasLane (lit 1 OptChan.reset Lane.reset false) (1 : BitVec 7).toNat ∧ OptKind (lit 1 OptChan.reset Lane.reset false) 1 1 3 ∧
      optCount (lit 1 OptChan.reset Lane.reset false) 1 = 4 ∧ 0 + 4 ≤ optLen (optWord (lit 1 OptChan.reset Lane.reset false) 1) ∧
      SourceFits (lit 1 OptChan.reset Lane.reset false) 0x1000 4 ∧
      (lit 1 OptChan.reset Lane.reset false).portSeen (lit 1 OptChan.reset Lane.reset false).modid 0 = false ∧
      (laneOf' (lit 1 OptChan.reset Lane.reset false)).msgs.length < 16 ∧
      16 ≤ (laneOf' (lit 1 OptChan.reset (busyLane (List.replicate 16 optMsg)) false)).msgs.length) ∧
    (Exchanges (lit 2 { OptChan.reset with arr := 4 } Lane.reset false) ∧
      OptKind (lit 2 { OptChan.reset with arr := 4 } Lane.reset false) 1 2 4 ∧
      optArrived (lit 2 { OptChan.reset with arr := 4 } Lane.reset false) 1 = 4 ∧
      (optOf (lit 2 { OptChan.reset with stale := 1 } Lane.reset false) 1).stale ≠ 0 ∧
      optArrived (lit 2 OptChan.reset Lane.reset true) 1 < optCount (lit 2 OptChan.reset Lane.reset true) 1 ∧
      (lit 2 OptChan.reset Lane.reset true).me.windowed = true ∧ (lit 2 OptChan.reset Lane.reset false).me.windowed = false) ∧
    (((lit 1 OptChan.reset Lane.reset false).x 2).toNat % 2 ^ 16 = (lit 1 OptChan.reset Lane.reset false).topver ∧
      ((lit 1 OptChan.reset Lane.reset false).x 3).toNat % 2 ^ 16 ≠ (lit 1 OptChan.reset Lane.reset false).topver) ∧
    ¬ Exchanges (usual .x 0 0 0 0 0) ∧ Exchanges (stateOf 2 .x (coreOf 1 (regsOf 0 0 0 0)) Tile.idle partOf1) ∧
    (∀ l, ¬ HasLane (stateOf 2 .x (coreOf 1 (regsOf 0 0 0 0)) Tile.idle partOf1) l) := by
  refine ⟨sound_osend, ⟨sound_orecv _ _ (by decide +kernel), sound_orecv _ _ (by decide +kernel), sound_orecv _ _ (by decide +kernel)⟩, ⟨⟨by decide, by decide⟩, by unfold OptKind; decide +kernel,
    by unfold OptKind; decide +kernel, by unfold PortTile; decide +kernel⟩, ⟨live_of _ ?_, ?_, ⟨⟨?_, .inl ?_⟩, ?_, .inl ?_⟩, ⟨?_, .inl ?_⟩, ?_, ?_, ⟨{ base := 0x1000, size := 2, ro := false, kind := 0, fmt := 0 },
    ⟨?_, ?_⟩, ?_⟩, ?_, ?_, ?_⟩, ⟨?_, ⟨?_, .inl ?_⟩, ?_, ?_, ?_, ?_⟩, ⟨?_, ?_⟩, ?_, ?_, fun l h => ?_⟩
  all_goals first | exact absurd h.1.1 (by decide +kernel) | decide +kernel | (unfold Exchanges; decide +kernel)

/-- Lane 1's port is lost, and this module has seen it. -/
def litLost (kind : Nat) : State := { lit kind OptChan.reset Lane.reset false with lostPorts := [(0x3FFFF, 0, 900), (0, 0, 900)] }

theorem test_meets_OpticalForms_traps :
    (Live (litLost 1) ∧ OsendSound (litLost 1) 1 1 4 0x1000 ∧ (litLost 1).portSeen (litLost 1).modid (1 / 8) = true) ∧
    (OrecvSound (litLost 2) 1 1 4 ∧ (litLost 2).portSeen (optPmod (optWord (litLost 2) 1)) (optPlane (optWord (litLost 2) 1) / 8) = true) ∧
    (¬ Exchanges (stateOf 2 .x (coreOf 0 (regsOf 0 0 0 0)) Tile.idle partOf1) ∧ ¬ PortTile (stateOf 2 .x (coreOf 0 (regsOf 0 0 0 0)) Tile.idle partOf1)) := by
  have hc : (litLost 1).latch.core = 4 ∧ (litLost 2).latch.core = 4 := ⟨rfl, rfl⟩
  refine ⟨⟨live_of _ ?_, ⟨?_, ⟨⟨?_, .inl ⟨?_, ?_⟩⟩, ?_, .inl rfl⟩, ⟨?_, .inl ?_⟩, ?_, ⟨region1, ⟨?_, ?_⟩, ?_⟩⟩, ?_⟩,
    ⟨⟨?_, ⟨⟨?_, .inl ⟨?_, ?_⟩⟩, ?_, .inl rfl⟩, ⟨?_, .inl ?_⟩, ?_⟩, ?_⟩, ⟨?_, ?_⟩⟩ <;>
    first | decide +kernel | (unfold Exchanges; decide +kernel) | (unfold PortTile; decide +kernel) | (rw [hc.2]; decide)

/-- A flit for entry 5 of lane 1's port tile. -/
def optFlit (lane entry : Nat) (v : BitVec 16) : OptFlit :=
  { lane := lane, entry := entry, index := 3, data := 7, topv := v, sched := 0 }

/-- A module whose ports are as `f` makes them and whose lane of tile 2 is `l`. -/
def ported (p : Port) (l : Lane) : State :=
  { stateOf 0 .x (coreOf 1 (regsOf 0 0 0 0)) Tile.idle partOf1 with
    tiles := Table.set Tile.idle [] 2 { Tile.idle with lane := l }, ports := Table.set Port.reset [] 0 p }

theorem test_meets_OpticalSteps :
    (Whole (ported Port.reset Lane.reset) ∧ (optFlit 1 5 0).lane < 128 ∧ (optFlit 1 5 0).entry < 64 ∧
      (optFlit 1 5 0).topv.toNat = (ported Port.reset Lane.reset).topver ∧ (optFlit 1 5 4).topv.toNat ≠ (ported Port.reset Lane.reset).topver) ∧
    (128 ≤ (optFlit 128 5 0).lane ∧ 64 ≤ (optFlit 1 64 0).entry) ∧
    (Whole (ported Port.reset (busyLane [optMsg])) ∧ ((ported Port.reset (busyLane [optMsg])).port (1 / 8)).lost = false ∧ optMsg.id < 2 ^ 32 ∧
      ((ported Port.reset (busyLane [optMsg])).tile (tileOfLane 1)).lane.msgs = [optMsg] ∧ optMsg.stalled = false ∧ optMsg.next = 3 ∧
      3 + 1 < optMsg.n ∧ optMsg.demand = false ∧ ((ported Port.reset (busyLane [optMsg])).tile (tileOfLane 1)).lane.slotAt ≤ 1000 ∧
      ((ported Port.reset (busyLane [optMsg])).tile (tileOfLane 1)).lane.blockTo ≤ 1000 ∧
      optMsg.pmod = (ported Port.reset (busyLane [optMsg])).modid ∧ Clean (ported Port.reset (busyLane [optMsg])) (tileOfLane 1)) ∧
    (OsendSound (lit 1 OptChan.reset Lane.reset false) 1 1 4 0x1000 ∧
      OrecvSound (lit 2 { OptChan.reset with arr := 4 } Lane.reset false) 1 1 4) ∧
    (((ported Port.reset Lane.reset).port 0).lost = false ∧ ((ported Port.reset Lane.reset).port 0).buffer = [] ∧
      (∀ w, w < 8 → ((ported Port.reset Lane.reset).tile (tileOfLane (8 * 0 + w))).lane.blockTo ≤ 1000) ∧
      ∀ w, w < 8 → ((ported Port.reset Lane.reset).tile (tileOfLane (8 * 0 + w))).lane.msgs = []) ∧
    (Whole (ported { Port.reset with pause := some 900 } Lane.reset) ∧
      ((ported { Port.reset with pause := some 900 } Lane.reset).port 0).pause = some 900 ∧ 1000 < 900 + Port.reset.bound) ∧
    (Whole (ported { Port.reset with pause := some 100, bound := 400 } Lane.reset) ∧
      100 + 2 * ((ported { Port.reset with pause := some 100, bound := 400 } Lane.reset).port 0).bound ≤ 1000) ∧
    (Whole (ported Port.reset { Lane.reset with gapFrom := 1000, gapTo := 97000 }) ∧
      ((ported Port.reset { Lane.reset with gapFrom := 1000, gapTo := 97000 }).tile (tileOfLane 1)).lane.gapFrom = 1000 ∧
      1000 + 96000 ≤ ((ported Port.reset { Lane.reset with gapFrom := 1000, gapTo := 97000 }).tile (tileOfLane 1)).lane.gapTo) ∧
    (¬ SameGroup 5 0x3FFFF ∧ (ported Port.reset Lane.reset).users 5 = [] ∧ SameGroup 0x3FFFE 0x3FFFF ∧ 0x3FFFE ∈ { ported Port.reset Lane.reset with spares := [0x3FFFE] }.spares ∧
      0x3FFFE ∉ { ported Port.reset Lane.reset with guard_ := some 0x3FFFE }.spares ∧ 0x3FFFE ≠ (ported Port.reset Lane.reset).modid) := by
  refine ⟨⟨whole_of_check ?_, ?_⟩, ?_, ⟨whole_of_check ?_, ?_⟩, ⟨sound_osend, sound_orecv _ _ (by decide +kernel)⟩, ?_, ⟨whole_of_check ?_, ?_⟩,
    ⟨whole_of_check ?_, ?_⟩, ⟨whole_of_check ?_, ?_⟩, ⟨?_, ?_, ?_, ?_, ?_⟩⟩ <;>
    first
      | decide +kernel | (unfold SameGroup; decide +kernel) | (unfold Clean; decide +kernel)

/-- A flit of lane 1 in its port's retry buffer. -/
def heldFlit : HeldFlit := { lane := 1, home := 1, pmod := 0x3FFFF, demand := false, flit := optFlit 1 5 0 }
def buffered : State := ported { Port.reset with buffer := [heldFlit] } Lane.reset

/-- A time group of eight serving modules, whose job of tag 6 uses module 0x3FFFE, at place 7; its part here has a save area. -/
def inGroup (spares : List Nat) (guard : Option Nat) (rebuilds : Table Nat) : State :=
  { ported Port.reset Lane.reset with
    serving := (List.range 8).map fun k => (k, 0x3FFF8 + k), spares := spares, guard_ := guard, rebuilds := rebuilds, jobUses := [(6, [0x3FFFE])],
    parts := [(4, { partNone with status := .running, queue := 3, width := 1, height := 1, resumeSave := some 0x200000,
                                   hdr := { Header256.zero with width := 1, height := 1, phmask := 1, gcount := 2, gtag := 6 } })] }

theorem test_meets_OpticalSteps_ports :
    (Whole buffered ∧ (buffered.port (1 / 8)).lost = false ∧ heldFlit ∈ (buffered.port (1 / 8)).buffer ∧ heldFlit.lane = 1 ∧ heldFlit.demand = false ∧
      (buffered.tile (tileOfLane 1)).lane.blockTo ≤ buffered.now ∧
      ∀ v ∈ buffered.agenda, ∀ k, v.ev ≠ .opticalFlitDeparture (tileOfLane 1) (2 ^ 33) k) ∧
    (Whole (ported { Port.reset with lost := true } Lane.reset) ∧ ((ported { Port.reset with lost := true } Lane.reset).port 0).lost = true ∧
      ((ported Port.reset Lane.reset).port 0).lost = false ∧ (∃ e ∈ (ported Port.reset Lane.reset).parts, e.2.status ≠ .none)) ∧
    (SameGroup 0x3FFFE (ported Port.reset Lane.reset).modid ∧ 0x3FFFE ≠ (ported Port.reset Lane.reset).modid) := by
  refine ⟨⟨whole_of_check ?_, ?_, ?_, rfl, rfl, ?_, fun v hv => absurd hv List.not_mem_nil⟩, ⟨whole_of_check ?_, ?_, ?_, ⟨_, List.mem_singleton_self _, ?_⟩⟩,
    ⟨?_, ?_⟩⟩ <;> first | decide +kernel | (unfold SameGroup; decide +kernel)

theorem test_meets_OpticalSteps_losses :
    (Whole (inGroup [0x3FFF0, 0x3FFE5] (some 0x3FFF1) []) ∧ ServesHere (inGroup [0x3FFF0, 0x3FFE5] (some 0x3FFF1) []) 0x3FFFE 7 ∧
      Rebuildable (inGroup [0x3FFF0, 0x3FFE5] (some 0x3FFF1) []) 7 ∧ (inGroup [0x3FFF0, 0x3FFE5] (some 0x3FFF1) []).spares ≠ [] ∧
      4 ∈ (inGroup [0x3FFF0, 0x3FFE5] (some 0x3FFF1) []).users 0x3FFFE ∧
      ((inGroup [0x3FFF0, 0x3FFE5] (some 0x3FFF1) []).part 4).resumeSave.isSome = true) ∧
    (Whole (inGroup [] (some 0x3FFF1) []) ∧ ServesHere (inGroup [] (some 0x3FFF1) []) 0x3FFFE 7 ∧ Rebuildable (inGroup [] (some 0x3FFF1) []) 7) ∧
    (Whole (inGroup [] none []) ∧ ServesHere (inGroup [] none []) 0x3FFFE 7 ∧ (inGroup [] none []).guard_ = none) ∧
    (Whole (inGroup [] none [(0, 2000)]) ∧ ServesHere (inGroup [] none [(0, 2000)]) 0x3FFFE 7 ∧ ¬ RebuildPossible (inGroup [] none [(0, 2000)]) 7) := by
  refine ⟨⟨whole_of_check ?_, ?_, ⟨?_, ?_, fun e he => absurd he List.not_mem_nil, ?_⟩, ?_, ?_, ?_⟩,
    ⟨whole_of_check ?_, ?_, ⟨?_, ?_, fun e he => absurd he List.not_mem_nil, ?_⟩⟩, ⟨whole_of_check ?_, ?_, rfl⟩, ⟨whole_of_check ?_, ?_, ?_⟩⟩ <;>
    first | decide +kernel | (unfold ServesHere SameGroup; decide +kernel) | (unfold RebuildPossible; decide +kernel)

theorem test_meets_DemandCircuits :
    { State.reset with domain := [] }.domain = [] ∧ { State.reset with domain := [(0x3FFFF, 0)] }.domain ≠ [] ∧ [0, 2].Nodup ∧ [1].Nodup := by
  decide +kernel

/-! ## Queues, launches and hosts -/

/-- Queue 3, whose context maps page 1 onto page 2 of the second tier; its ring has 512 words and its head is at 7. -/
def ring : Queue := { Queue.reset with base := 0x300000, log2 := 9, tail := 20, head := 7, waitmask := 0b1000, en := true, evt := 0x380000 }
def queued (x : Queue) : State :=
  { State.reset with boot := 5, tickOn := true, now := 2000000000, queues := [(3, x)], pages := [(3 * 2 ^ 27 + 1, 0x8000000000000002)],
                     tokens := [(49, 8)], tier := [(0x400000, 8)], hostMem := [(0x3, 7)] }

theorem test_meets_QueueControl :
    (Whole (queued ring) ∧ (3 < 16) ∧ ((queued ring).queue 3).loops.length < 4 ∧ ((queued ring).queue 3).loops = [] ∧
      (queued ring).ctxBytes 3 (0x600000 : BitVec 48).toNat 8 = none ∧
      (queued ring).ctxBytes 3 (0x200000 : BitVec 48).toNat 8 = some [8, 0, 0, 0, 0, 0, 0, 0] ∧ ifTrue 0 8 8 ∧ ¬ ifTrue 2 8 8 ∧
      ((queued ring).queue 3).waitmask.getLsbD (47 / 16) = false ∧ ((queued ring).queue 3).waitmask.getLsbD (49 / 16) = true ∧
      Reached ((queued ring).token 49) 8 ∧ ¬ Reached ((queued ring).token 49) 9) ∧
    (4 ≤ ((queued { ring with loops := List.replicate 4 { start := 1, left := 2 } }).queue 3).loops.length) ∧
    (Whole (queued { ring with head := 20, loops := [{ start := 1, left := 1 }] }) ∧
      ((queued { ring with head := 20, loops := [{ start := 1, left := 1 }] }).queue 3).head =
        ((queued { ring with head := 20, loops := [{ start := 1, left := 1 }] }).queue 3).tail % 2 ^ 9 ∧
      ((queued { ring with head := 20, loops := [{ start := 1, left := 1 }] }).queue 3).block = .none ∧
      ((queued { ring with head := 20, loops := [{ start := 1, left := 1 }] }).queue 3).halt = false ∧ 0 + 1200000000 ≤ (queued ring).now) ∧
    (queued ring).now < ((queued { ring with idleAt := 1000000000 }).queue 3).idleAt + 1200000000 ∧
    (Whole (queued { ring with block := .token 49 9 }) ∧ ((queued { ring with block := .token 49 9 }).queue 3).block = .token 49 9 ∧
      Reached (((queued ring).token 49 + (1 : BitVec 32).toNat) % 2 ^ 32) 9) ∧
    ((queued { ring with block := .token 49 8 }).queue 3).block = .token 49 8 := by
  refine ⟨⟨whole_of_check ?_, ?_⟩, ?_, ⟨whole_of_check ?_, ?_⟩, ?_, ⟨whole_of_check ?_, ?_⟩, ?_⟩ <;> first | decide +kernel | (unfold Reached; decide +kernel) |
    (simp only [ifTrue]; unfold Reached; decide +kernel)

def copying (toHost : Bool) : State :=
  queued { ring with block := .copy, copy := some { toHost := toHost, host := 3, dev := 0x200000, len := 2, token := some 49 } }
def comparing : State := queued { ring with block := .copy, compare := some (0x200000, 0x200008) }
def dyingIn (dying : Bool) : State :=
  { queued { ring with block := .drain } with tlbs := [(0, { entries := [{ ctx := 3, page := 1, pins := [(8, 1200)], dying := dying, leaving := false }], walkEnd := 0 })] }

theorem mapped_of (s : State) (c : Nat) (p n : Nat)
    (h : p + n ≤ 2 ^ 48 ∧ ∀ k, k < (p % 2 ^ 21 + n + 2 ^ 21 - 1) / 2 ^ 21 → (s.leaf c (p + k * 2 ^ 21)).getLsbD 63 = true) : Mapped s c p n := by
  refine ⟨h.1, fun i hi => ?_⟩
  have l := h.2 ((p + i) / 2 ^ 21 - p / 2 ^ 21) (by omega)
  have e : (p + i) / 2 ^ 21 = (p + ((p + i) / 2 ^ 21 - p / 2 ^ 21) * 2 ^ 21) / 2 ^ 21 := by omega
  simp only [State.leaf] at l ⊢
  rwa [e]

theorem ctxBytes_cons (s : State) (c va n : Nat) (b : Byte) (r : List Byte) (hb : s.ctxByte c va = some b)
    (hr : s.ctxBytes c (va + 1) n = some r) : s.ctxBytes c va (n + 1) = some (b :: r) := by
  simp [State.ctxBytes, hb, hr]

theorem ctxBytes_of (s : State) (c : Nat) : ∀ n va, Mapped s c va n → ∃ l, s.ctxBytes c va n = some l
  | 0, _, _ => ⟨[], rfl⟩
  | n + 1, va, h => by
    obtain ⟨l, hl⟩ := ctxBytes_of s c n (va + 1) ⟨by have := h.1; omega, fun i hi => by
      have := h.2 (i + 1) (by omega); rwa [show va + (i + 1) = va + 1 + i from by omega] at this⟩
    have h0 := h.2 0 (by omega)
    simp only [Nat.add_zero] at h0
    have : ∃ b, s.ctxByte c va = some b := by
      have hv : va < 2 ^ 48 := by have := h.1; omega
      simp only [State.ctxByte, State.translate, h0, hv, and_self, if_true, Option.map]
      exact ⟨_, rfl⟩
    obtain ⟨b, hb⟩ := this
    exact ⟨b :: l, ctxBytes_cons s c va n b l hb hl⟩

/-- An operation of context 3 waits for room with a translation that is no longer the tables', or with theirs; a collective does. -/
def oldTask (w : Word) : QuayTask :=
  { id := 8, serial := 5, core := 0, kind := .get, store := 0x1000, va := 0x200000, handle := 0x207, ctx := 3, row := 1, idx := [], units := 2,
    elems := 16, frames := [(1, w)], tp := false, tw := false, tid := 2, after := none, promise := 0, slots := [], left := 2, port := 2,
    mark := 0, list := 0, tables := [], start := none, first := 0, poison := 0, stop := false }
def holding (w : Word) : State :=
  { dyingIn false with cores := [(0, { Core.idle with waits := [{ slot := 4, word := 0x77, issued := 900, limit := none, bound := 5,
                                                                  what := .quay 3 (oldTask w) 3, again := false }] })] }
def joined3 (w : Word) : State :=
  { dyingIn false with colls := [(3, { Coll.none with
      parts := [{ core := 0, ticket := 5, desc := [], rank := 0, ctx := 3, frames := [(1, w)], zeroed := 0, gone := false }] })] }

theorem not_draining (s : State) (t : ∀ p ∈ s.tlbs, ∀ e ∈ p.2.entries, e.dying = false) (w : ∀ c ∈ s.cores, c.2.heldTasks = [])
    (k : s.colls = []) : ¬ Draining s := by
  rintro (⟨p, hp, e, he, h⟩ | ⟨c, hc, x, hx, -⟩ | ⟨e, he, -⟩)
  · simp [t p hp e he] at h
  · simp [w c hc] at hx
  · simp [k] at he

theorem draining_tlb : Draining (dyingIn true) := .inl ⟨_, List.mem_singleton_self _, _, List.mem_singleton_self _, rfl⟩
theorem draining_task : Draining (holding 5) :=
  .inr (.inl ⟨_, List.mem_singleton_self _, (3, oldTask 5, 3), List.mem_singleton_self _, (1, 5), List.mem_singleton_self _, by decide +kernel⟩)
theorem draining_coll : Draining (joined3 5) :=
  .inr (.inr ⟨_, List.mem_singleton_self _, _, List.mem_singleton_self _, rfl, (1, 5), List.mem_singleton_self _, by decide +kernel⟩)

theorem test_meets_QueueTransfers :
    (Whole (queued ring) ∧ Mapped (queued ring) 3 (0x200000 : BitVec 48).toNat (16 : Word).toNat ∧
      Mapped (queued ring) 3 (0x200000 : BitVec 48).toNat 448 ∧ Mapped (queued ring) 3 (0x3FFFF8 : BitVec 48).toNat 8 ∧
      ¬ Mapped (queued ring) 3 (0x400000 : BitVec 48).toNat 8 ∧ ¬ Mapped (queued ring) 3 (0x3FFFFF : BitVec 48).toNat (2 : Word).toNat ∧
      ¬ MapIllegal (0x200000 : BitVec 48).toNat (0x8000000000000005 : Word).toNat (1 : Word).toNat ∧
      MapIllegal (0x200000 : BitVec 48).toNat (5 : Word).toNat (1 : Word).toNat) ∧
    (∀ b, Whole (copying b) ∧ ((copying b).queue 3).block = .copy ∧ ((copying b).queue 3).copy.isSome = true ∧ ((copying b).queue 3).compare = none ∧
      Mapped (copying b) 3 0x200000 2) ∧
    (∀ i j, i < 2 → j < 2 → (copying false).translate 3 (0x200000 + i) = (copying false).translate 3 (0x200000 + j) → i = j) ∧
    (Whole comparing ∧ (comparing.queue 3).block = .copy ∧ (comparing.queue 3).copy = none ∧
      (comparing.queue 3).compare = some (0x200000, 0x200008) ∧ comparing.manifest 3 = none ∧ 0x200008 % 2 ^ 21 + 8 ≤ 2 ^ 21 ∧
      comparing.translate 3 0x200008 = some 0x400008) ∧
    (∀ b, Whole (dyingIn b) ∧ ((dyingIn b).queue 3).block = .drain) ∧
    (Draining (dyingIn true) ∧ Draining (holding 5) ∧ Draining (joined3 5) ∧ ¬ Draining (dyingIn false)) ∧
    Replaces (queued ring) 3 0x200000 1 ∧ ¬ Replaces (queued ring) 3 0x400000 1 := by
  refine ⟨⟨whole_of_check ?_, mapped_of _ _ _ _ ?_, mapped_of _ _ _ _ ?_, mapped_of _ _ _ _ ?_, fun h => ?_, fun h => ?_, ?_, ?_⟩,
    fun b => ⟨whole_of_check ?_, ?_, ?_, ?_, mapped_of _ _ _ _ ?_⟩, ?_, ⟨whole_of_check ?_, ?_⟩, fun b => ⟨whole_of_check ?_, ?_⟩,
    ⟨draining_tlb, draining_task, draining_coll, not_draining _ ?_ ?_ ?_⟩, ⟨0, ?_, ?_⟩, ?_⟩
  all_goals try cases b
  all_goals first
    | decide +kernel
    | exact fun i j hi hj => (by decide +kernel : ∀ i, i < 2 → ∀ j, j < 2 →
        (copying false).translate 3 (0x200000 + i) = (copying false).translate 3 (0x200000 + j) → i = j) i hi j hj
    | exact absurd (h.2 0 (by decide)) (by decide +kernel)
    | exact absurd (h.2 1 (by decide)) (by decide +kernel)
    | (unfold MapIllegal; decide +kernel)
    | (unfold Replaces; decide +kernel)

/-- A header of one sheaf that starts at 0x20 of the index area, and an image of idle tiles for it. -/
def hdrBytes : Memory := [(0x400004, 1), (0x400008, 1), (0x400009, 1), (0x400010, 1), (0x40001A, 0x20), (0x400022, 0x20), (0x40002A, 0x20),
  (0x400034, 0x20)]
def imageOf : Image := { sizes := [16, 16, 16], frames := [2, 2, 2], digest := 0, tables := [], regionTables := [], peersDiffer := false, tiles := [] }
def launching (x : Queue) (hdr : Memory) : State :=
  { queued x with tier := hdr, images := [(blocksKey [0x400000, 0x400000, 0x400000], some imageOf)] }
def hdrOne : Header256 :=
  { Header256.zero with hfmt := 1, width := 1, height := 1, phmask := 1, start := 0x20
                        bintab := 0x200000, routes := 0x200000, regions := 0x200000 }
def launchOne : Launch := launchOf (launching ring hdrBytes) 3 hdrOne 1 1 true 1 none
def pidOne : Machine.Part := { partNone with status := .waiting, hdr := hdrOne, image := launchOne.image, queue := 3, width := 1, height := 1 }
def withPid (p : Part) (b : Block) : State := { launching { ring with block := b } hdrBytes with parts := [(9, p)] }

theorem mapped1 (s : State) (a : Nat) (h : a < 2 ^ 48 ∧ (s.leaf 3 a).getLsbD 63 = true) : Mapped s 3 a 1 :=
  ⟨by omega, fun i hi => by rw [show i = 0 by omega, Nat.add_zero]; exact h.2⟩

def roomy : State := { withPid pidOne .none with pages := (List.range 8).map fun k => (3 * 2 ^ 27 + 1 + k, 0x8000000000000002 + BitVec.ofNat 64 k) }

theorem test_meets_LaunchCommands :
    (Whole (launching ring hdrBytes) ∧ headerAt (launching ring hdrBytes) 3 0x200000 = some hdrOne ∧ headerAt (launching ring hdrBytes) 3 0x400000 = none ∧
      Sound (launching ring hdrBytes) 3 launchOne imageOf ∧ headerBad hdrOne 1 1 = false ∧ headerBad { hdrOne with hfmt := 0 } 1 1 = true ∧
      (launching ring hdrBytes).image 0x200040 = none ∧ ((launching ring hdrBytes).readHints 3 hdrOne).isSome = true ∧
      (launching ring hdrBytes).ctxBytes 3 0x200008 8 = some [1, 1, 0, 0, 0, 0, 0, 0] ∧ (launching ring hdrBytes).ctxBytes 3 0x400000 8 = none) ∧
    (Whole (launching ring (hdrBytes ++ [(0x400038, 0x20), (0x404004, 1), (0x404005, 1)])) ∧
      headerAt (launching ring (hdrBytes ++ [(0x400038, 0x20), (0x404004, 1), (0x404005, 1)])) 3 0x200000 = some { hdrOne with resume := 0x20 } ∧
      headerBad { hdrOne with resume := 0x20 } 1 1 = false ∧
      ∃ l, (launching ring (hdrBytes ++ [(0x400038, 0x20), (0x404004, 1), (0x404005, 1)])).ctxBytes 3 0x204000 4096 =
        some (0 :: 0 :: 0 :: 0 :: 1 :: 1 :: 0 :: 0 :: l)) ∧
    (Whole (launching { ring with block := .place, launch := some launchOne } hdrBytes) ∧
      (launching { ring with block := .place, launch := some launchOne } hdrBytes).image launchOne.image = some imageOf ∧
      (scanOrigins 0 1 1).head? = some (0, 0) ∧ Fits (launching { ring with block := .place, launch := some launchOne } hdrBytes) imageOf launchOne (0, 0)) ∧
    (Whole (withPid pidOne (.start 9)) ∧ ((withPid pidOne (.start 9)).queue 3).block = .start 9 ∧ ((withPid pidOne (.start 9)).part 9).status = .waiting ∧
      ((withPid pidOne (.start 9)).part 9).t0 = 0 ∧ ((withPid pidOne (.start 9)).part 9).hdr.gcount = 0 ∧
      ((withPid pidOne (.start 9)).part 9).resumeSave = none ∧ (withPid pidOne (.start 9)).image pidOne.image = some imageOf ∧
      ∀ n ∈ ((withPid pidOne (.start 9)).part 9).tiles, (withPid pidOne (.start 9)).quaysDrained n = true ∧
        ((withPid pidOne (.start 9)).tile n).testRows = [] ∧ ((withPid pidOne (.start 9)).tile n).marked = none) ∧
    (Whole (withPid { pidOne with status := .running, t0 := 2000000000 } (.start 9)) ∧
      ((withPid { pidOne with status := .running, t0 := 2000000000 } (.start 9)).part 9).status = .running ∧
      (withPid pidOne (.start 9)).now < ((withPid { pidOne with status := .running, t0 := 2000000001 } (.start 9)).part 9).t0) ∧
    (((withPid pidOne .none).part 8).status = .none ∧ ((withPid pidOne .none).part 9).status ≠ .none ∧ ((withPid pidOne .none).part 9).preempt = none ∧
      Mapped roomy 3 (0x200000 : BitVec 48).toNat ((withPid pidOne .none).part 9).saveSize ∧
      ¬ Mapped (withPid pidOne .none) 3 (0x400000 : BitVec 48).toNat ((withPid pidOne .none).part 9).saveSize) ∧
    (Whole (withPid { pidOne with status := .running, preempt := some (3, 0x200000) } (.preempt 9)) ∧
      ((withPid { pidOne with status := .running, preempt := some (3, 0x200000) } (.preempt 9)).part 9).preempt = some (3, 0x200000) ∧
      ((withPid { pidOne with status := .running, preempt := some (3, 0x200000) } (.preempt 9)).queue 3).block = .preempt 9) ∧
    (8 < ptidCol 0x120 ∧ 5 < 0xC00 / 2 ^ 9 % 2 ^ 3 ∧ ptidCol 0x20 < 8 ∧ 0x20 / 2 ^ 9 % 2 ^ 3 ≤ 5 ∧ maskOf (queued ring) (ptidField 0x20) (ptidRow 0x20) = 0 ∧
      shiftOf (queued ring) (ptidField 0x20) (ptidRow 0x20) = none ∧
      maskOf { queued ring with deadMask := [(0, 2)] } (ptidField 0x20) (ptidRow 0x20) / 2 ^ ptidCol 0x20 % 2 = 1) ∧
    (TargetFree (withPid pidOne .none) 0 0x20 ∧ ¬ TargetFree (usual .x 1 0 0 0 0) 0 0) ∧
    (Whole (queued { ring with block := .test }) ∧ ((queued { ring with block := .test }).queue 3).block = .test ∧
      (((queued { ring with block := .test }).queue 3).evtail + 128 - ((queued { ring with block := .test }).queue 3).evhead) % 128 < 64 ∧
      64 ≤ (((queued { ring with evtail := 64 }).queue 3).evtail + 128 - ((queued { ring with evtail := 64 }).queue 3).evhead) % 128) := by
  refine ⟨⟨whole_of_check ?_, ?_, ?_, ⟨?_, ?_, ?_, ⟨fun a ha => ?blocks, fun im hi => ?image⟩, ?_, ⟨?_, ?_⟩, ?_, ?_, ?_⟩, ?_⟩, ⟨whole_of_check ?_, ?_, ?_, ?save⟩, ⟨whole_of_check ?_, ?_, ?_, ⟨?_, ?_⟩⟩,
    ⟨whole_of_check ?_, ?_⟩, ⟨whole_of_check ?_, ?_⟩, ⟨?_, ?_, ?_, mapped_of _ _ _ _ ?_, fun h => ?_⟩, ⟨whole_of_check ?_, ?_⟩, ?_,
    ⟨?_, ?_⟩, ⟨whole_of_check ?_, ?_⟩⟩
  case save =>
    obtain ⟨l, hl⟩ := ctxBytes_of (launching ring (hdrBytes ++ [(0x400038, 0x20), (0x404004, 1), (0x404005, 1)])) 3 4088 0x204008
      (mapped_of _ _ _ _ (by decide +kernel))
    exact ⟨l, ctxBytes_cons _ _ _ _ _ _ (by decide +kernel) (ctxBytes_cons _ _ _ _ _ _ (by decide +kernel) (ctxBytes_cons _ _ _ _ _ _
      (by decide +kernel) (ctxBytes_cons _ _ _ _ _ _ (by decide +kernel) (ctxBytes_cons _ _ _ _ _ _ (by decide +kernel) (ctxBytes_cons _ _ _ _ _ _
      (by decide +kernel) (ctxBytes_cons _ _ _ _ _ _ (by decide +kernel) (ctxBytes_cons _ _ _ _ _ _ (by decide +kernel) hl)))))))⟩
  case blocks => exact mapped1 _ _ ((by decide +kernel : ∀ a ∈ [launchOne.hdr.bintab, launchOne.hdr.routes, launchOne.hdr.regions],
    a < 2 ^ 48 ∧ ((launching ring hdrBytes).leaf 3 a).getLsbD 63 = true) a ha)
  case image =>
    obtain rfl : imageOf = im := Option.some.inj ((by decide +kernel : (launching ring hdrBytes).image launchOne.image = some imageOf).symm.trans hi)
    intro e he
    have hl : launchOne.hdr.blocks.zip imageOf.sizes = [(0x200000, 16), (0x200000, 16), (0x200000, 16)] := by decide +kernel
    rw [hl] at he
    simp only [List.mem_cons, List.not_mem_nil, or_false, or_self] at he
    subst he
    exact mapped_of _ _ _ _ (by decide +kernel)
  all_goals first
    | decide +kernel
    | exact absurd (h.2 0 (by decide +kernel)) (by decide +kernel)
    | (unfold TargetFree; decide +kernel)

/-- The module is the guard; a queue of a higher priority waits too; the shape has no origin. -/
def placing (x : State → State) (l : Launch) : State := x (launching { ring with block := .place, launch := some l } hdrBytes)
def guarding : State := placing (fun s => { s with guard_ := some 0x3FFFF }) launchOne
def outranked : State := placing (fun s => { s with queues := s.queues ++ [(5, { ring with block := .place, prio := 1, launch := some launchOne })] }) launchOne
def tooWide : Launch := { launchOne with width := 65 }

/-- Nine pages of context 3, one after the other; a resume and a pre-emption with their save area on them. -/
def manyPages (s : State) : State :=
  { s with pages := (List.range 8).map fun k => (3 * 2 ^ 27 + 1 + k, 0x8000000000000002 + BitVec.ofNat 64 k) }
def resuming : State := manyPages (withPid { pidOne with resumeSave := some 0x200000, hdr := { hdrOne with resume := 0x20 } } (.start 9))
def saving : State :=
  manyPages { withPid { pidOne with status := .running, preempt := some (3, 0x200000) } (.preempt 9) with
    queues := [(3, { ring with block := .preempt 9, host := true })] }

theorem saving_translate (a : Nat) (h : a < areaSize (saving.part 9)) : saving.translate 3 (0x200000 + a) = some (0x400000 + a) := by
  have hs : areaSize (saving.part 9) = 2625536 := by decide +kernel
  rw [hs] at h
  have hk : ∀ k, k < 2 → saving.leaf 3 (0x200000 + k * 2 ^ 21) = 0x8000000000000002 + BitVec.ofNat 64 k := by decide +kernel
  have he : (0x200000 + a) / 2 ^ 21 = (0x200000 + a / 2 ^ 21 * 2 ^ 21) / 2 ^ 21 := by omega
  have hl := hk (a / 2 ^ 21) (by omega)
  simp only [State.leaf] at hl
  simp only [State.translate, State.leaf, he, hl]
  have h2 : a / 2 ^ 21 = 0 ∨ a / 2 ^ 21 = 1 := by omega
  rcases h2 with e | e <;> rw [e]
  · rw [if_pos ⟨by omega, by decide⟩, show fld ((0x8000000000000002 + BitVec.ofNat 64 0 : BitVec 64)).toNat 0 23 = 2 from by decide]
    congr 1
    omega
  · rw [if_pos ⟨by omega, by decide⟩, show fld ((0x8000000000000002 + BitVec.ofNat 64 1 : BitVec 64)).toNat 0 23 = 3 from by decide]
    congr 1
    omega

theorem test_meets_LaunchCommands_waits :
    (Whole guarding ∧ (guarding.queue 3).block = .place ∧ (guarding.queue 3).launch = some launchOne ∧ guarding.image launchOne.image = some imageOf ∧
      guarding.guard_ = some guarding.modid) ∧
    (Whole outranked ∧ (outranked.queue 3).block = .place ∧ outranked.image launchOne.image = some imageOf ∧ (5 < 16) ∧
      (outranked.queue 5).block = .place ∧ (outranked.queue 3).prio < (outranked.queue 5).prio) ∧
    (Whole (placing id tooWide) ∧ (placing id tooWide).image tooWide.image = some imageOf ∧
      ∀ o ∈ scanOrigins tooWide.hdr.gsize tooWide.width tooWide.height, ¬ Fits (placing id tooWide) imageOf tooWide o) ∧
    (Whole resuming ∧ (resuming.queue 3).block = .start 9 ∧ (resuming.part 9).status = .waiting ∧ (resuming.part 9).t0 = 0 ∧
      (resuming.part 9).hdr.gcount = 0 ∧ resuming.image (resuming.part 9).image = some imageOf ∧
      (∀ n ∈ (resuming.part 9).tiles, resuming.quaysDrained n = true) ∧ NoStep resuming 9 ∧ (resuming.part 9).resumeSave = some 0x200000 ∧
      Mapped resuming 3 0x200000 (areaSize (resuming.part 9)) ∧ resuming.tierPoison = [] ∧ (resuming.part 9).tiles.Nodup) ∧
    (Whole saving ∧ (saving.part 9).preempt = some (3, 0x200000) ∧ (saving.queue 3).block = .preempt 9 ∧
      Mapped saving 3 0x200000 (areaSize (saving.part 9)) ∧ saving.tierPoison = [] ∧ (saving.queue (saving.part 9).queue).host = true ∧
      (∀ c ∈ (saving.part 9).cores, FitsArea saving c) ∧ (saving.part 9).width ≤ 64 ∧ (saving.part 9).height ≤ 40 ∧ (saving.part 9).hdr.gsize < 4 ∧
      (saving.part 9).hdr.iver < 2 ^ 32 ∧
      ∀ a b, a < areaSize (saving.part 9) → b < areaSize (saving.part 9) →
        saving.translate 3 (0x200000 + a) = saving.translate 3 (0x200000 + b) → a = b) := by
  refine ⟨⟨whole_of_check ?_, ?_⟩, ⟨whole_of_check ?_, ?_⟩, ⟨whole_of_check ?_, ?_, ?_⟩,
    ⟨whole_of_check ?_, ?_, ?_, ?_, ?_, ?_, ?_, fun e he => absurd he List.not_mem_nil, ?_, mapped_of _ _ _ _ ?_, ?_⟩,
    ⟨whole_of_check ?_, ?_, ?_, mapped_of _ _ _ _ ?_, ?_, ?_, ?_, ?_, ?_, ?_, ?_, fun a b ha hb h => ?inj⟩⟩
  case inj =>
    rw [saving_translate a ha, saving_translate b hb] at h
    have := Option.some.inj h
    omega
  all_goals first | decide +kernel | (unfold FitsArea; decide +kernel) | (unfold Fits; decide +kernel)

/-- A part of a group program beside another that waits; its image breaks R398 elsewhere in the group. And no image at its blocks, and one of
another digest. -/
def hdrTwo : Header256 := { hdrOne with gcount := 2, gtag := 6 }
def groupBad (im : Option Image) : State :=
  { launching ring (hdrBytes ++ [(0x40004E, 2), (0x400050, 6)]) with
    images := Table.set none [] (blocksKey [0x400000, 0x400000, 0x400000]) im
    queues := [(3, ring), (5, { ring with block := .place, launch := some { launchOne with hdr := hdrTwo } })] }
def launchTwo : Launch := { launchOne with hdr := hdrTwo }

theorem blocks_of (s : State) (l : Launch) (h : ∀ a ∈ l.hdr.blocks, a < 2 ^ 48 ∧ (s.leaf 3 a).getLsbD 63 = true)
    (hi : ∀ im, s.image l.image = some im → ∀ e ∈ l.hdr.blocks.zip im.sizes, e = (0x200000, 16))
    (h2 : Mapped s 3 0x200000 16) : BlocksMapped s 3 l :=
  ⟨fun a ha => mapped1 s a (h a ha), fun im him e he => by rw [hi im him e he]; exact h2⟩

theorem blocks_group (im : Option Image) (hs : ∀ i, im = some i → i.sizes = [16, 16, 16])
    (hg : (groupBad im).image launchTwo.image = im) : BlocksMapped (groupBad im) 3 launchTwo := by
  have hl : (groupBad im).leaf = (groupBad none).leaf := rfl
  refine blocks_of _ _ (by rw [hl]; decide +kernel) (fun i hi e he => ?_) (mapped_of _ _ _ _ (by rw [hl]; decide +kernel))
  rw [hg] at hi
  have hl : launchTwo.hdr.blocks = [0x200000, 0x200000, 0x200000] := rfl
  rw [hs i hi, hl] at he
  simp only [List.zip_cons_cons, List.zip_nil_right, List.mem_cons, List.not_mem_nil, or_false, or_self] at he
  exact he

theorem test_meets_LaunchCommands_images :
    (∀ im, im = some { imageOf with peersDiffer := true } → Whole (groupBad im) ∧ headerAt (groupBad im) 3 0x200000 = some hdrTwo ∧
      launchOf (groupBad im) 3 hdrTwo 1 1 true 1 none = launchTwo ∧ BlocksMapped (groupBad im) 3 launchTwo ∧
      ImageRead (groupBad im) 3 launchTwo { imageOf with peersDiffer := true } ∧ (groupBad im).opticsBad { imageOf with peersDiffer := true } 1 1 = true ∧
      WaitsWith (groupBad im) 5 6) ∧
    (Whole (groupBad none) ∧ BlocksMapped (groupBad none) 3 launchTwo ∧ ∀ im, ¬ ImageRead (groupBad none) 3 launchTwo im) ∧
    (∀ im, im = some { imageOf with digest := 1 } → Whole (groupBad im) ∧ BlocksMapped (groupBad im) 3 launchTwo ∧
      ImageRead (groupBad im) 3 launchTwo { imageOf with digest := 1 } ∧ (groupBad im).opticsBad { imageOf with digest := 1 } 1 1 = false ∧
      ({ imageOf with digest := 1 } : Image).bad hdrTwo 1 1 = true) := by
  refine ⟨fun im h => ?_, ⟨whole_of_check ?_, blocks_group _ ?_ ?_, fun im h => ?none⟩, fun im h => ?_⟩
  case none => exact absurd h.1 (by rw [show (groupBad none).image launchTwo.image = none by decide +kernel]; simp)
  · subst h
    refine ⟨whole_of_check ?_, ?_, ?_, blocks_group _ ?_ ?_, ⟨?_, ?_⟩, ?_, ⟨?_, { launchOne with hdr := hdrTwo }, ?_, ?_, ?_⟩⟩ <;>
      first | decide +kernel | (intro i hi; cases hi; rfl)
  · decide +kernel
  · intro i hi; cases hi
  · decide +kernel
  · subst h
    refine ⟨whole_of_check ?_, blocks_group _ ?_ ?_, ⟨?_, ?_⟩, ?_, ?_⟩ <;> first | decide +kernel | (intro i hi; cases hi; rfl)

/-- A module that host 1 owns until cycle 2000000500. -/
def owned (boot : Nat) : State :=
  { queued ring with boot := boot, lease := { Lease.reset with valid := true, owner := 1, expiry := 2000000500, claimed := 2000000000 } }

theorem test_meets_HostCommands :
    (Whole (owned 5) ∧ (owned 5).lease.valid = true ∧ (owned 5).now < (owned 5).lease.expiry ∧ (owned 5).lease.claimed = (owned 5).now ∧
      0 < (owned 5).lease.owner ∧ (owned 5).lease.owner ≤ 1 ∧ Owns (owned 5) 1 ∧ ¬ Owns (owned 5) 0) ∧
    (Whole (queued ring) ∧ ¬ ((queued ring).lease.valid = true ∧ (queued ring).now < (queued ring).lease.expiry) ∧
      (queued ring).lease.expiry ≤ (queued ring).now) ∧
    (((owned 5).queue 3).en = true ∧ ((owned 5).queue 4).en = false ∧ ((owned 5).queue 4).log2 < 9 ∧
      ({ owned 5 with queues := [(3, { ring with en := false })] }.queue 3).en = false ∧
      9 ≤ ({ owned 5 with queues := [(3, { ring with en := false })] }.queue 3).log2) := by
  refine ⟨⟨whole_of_check ?_, ?_, ?_, ?_, ?_, ?_, ⟨?_, ?_⟩, fun h => absurd h.2.2 ?_⟩, ⟨whole_of_check ?_, ?_⟩, ?_⟩ <;> decide +kernel

/-- The owner's JOBMAP 0 names a map of one rank; a map of rank 2 is in force, or none. -/
def jobMapOf : JobMap := { topver := 3, ranks := [(1, 0x40000)], planes := [], uses := [], serving := [(7, 0x40000)], guard_ := none, spares := [], domain := [] }
def mapNamed (ranks : Table Nat) : State := { owned 5 with jobMaps := [(2 ^ 64, some jobMapOf)], jobRanks := ranks }

theorem test_meets_HostCommands_map :
    ((0 : Word).toNat / 2 ^ 40 % 8 ∉ [1, 2, 3, 4] ∧ (0x10000000000 : Word).toNat / 2 ^ 40 % 8 ∈ [1, 2, 3, 4]) ∧
    (Whole (mapNamed []) ∧ (mapNamed []).boot = 5 ∧
      Table.get none (mapNamed []).jobMaps ((mapNamed []).lease.owner * 2 ^ 64 + (mapNamed []).mgmtReg 0x38) = some jobMapOf ∧
      (mapNamed []).jobRanks = []) ∧
    (Whole (mapNamed [(2, 5)]) ∧ (mapNamed [(2, 5)]).jobRanks ≠ [] ∧
      Table.get none (mapNamed [(2, 5)]).jobMaps ((mapNamed [(2, 5)]).lease.owner * 2 ^ 64 + (mapNamed [(2, 5)]).mgmtReg 0x38) = some jobMapOf) ∧
    (Table.get none (owned 5).jobMaps ((owned 5).lease.owner * 2 ^ 64 + (owned 5).mgmtReg 0x38) = none ∧ (owned 4).boot ≠ 5 ∧ (owned 4).mgmtReg 0x38 = 0 ∧
      ({ owned 4 with mgmt := [(0x38, 1)] } : State).mgmtReg 0x38 ≠ 0) := by
  refine ⟨⟨?_, ?_⟩, ⟨whole_of_check ?_, ?_⟩, ⟨whole_of_check ?_, ?_⟩, ?_⟩ <;> decide +kernel

/-- Host 1 owns it, HLEN of context 3 is `n`, and slot 2 is as `x` says. -/
def handled (n : Word) (x : Handle) : State :=
  { owned 5 with handles := Table.set Handle.reset [] (3 * 1024 + 2) x, handleRegs := Table.set (0 : Word) [] 13 n }

theorem test_meets_HandlesAndBoot :
    (Whole (handled 0 Handle.reset) ∧ Owns (handled 0 Handle.reset) 1 ∧ ¬ Owns (handled 0 Handle.reset) 0 ∧
      (slotOf (handled 0 Handle.reset) 3 2).state = .free ∧ handleWords (handled 0 Handle.reset) 3 1 = 0 ∧
      handleWords (handled 4 Handle.reset) 3 1 ≠ 0 ∧ 0 + 64 * handleWords (handled 4 Handle.reset) 3 1 ≤ 2 ^ 48 ∧
      (slotOf (handled 4 { Handle.reset with state := .opened, gen := 7, len := 4 }) 3 2).state = .opened ∧
      (slotOf (handled 4 { Handle.reset with state := .opened, gen := 7, len := 4 }) 3 2).gen = (2 * 256 + 7) % 256 ∧
      (slotOf (handled 4 { Handle.reset with state := .opened, gen := 7, len := 4 }) 3 2).count = 0) ∧
    (Owns (owned 0) 1 ∧ (owned 0).boot = 0 ∧ 0x8001 ≤ (owned 0x8001).boot ∧ 0 < (owned 5).boot ∧ (owned 5).boot < 0x8001) ∧
    (Whole (owned 3) ∧ (owned 3).boot = 3 ∧ Whole (owned 4) ∧ (owned 4).boot = 4 ∧ (owned 4).mgmtReg 0x28 = 0 ∧ 5 ≤ (owned 5).boot) ∧
    (Owns (owned 5) 1 ∧ (owned 5).boot = 5 ∧ (owned 4).boot ≠ 5 ∧ Whole (owned 5)) := by
  refine ⟨⟨whole_of_check ?_, ⟨?_, ?_⟩, fun h => absurd h.2.2 ?_, ?_⟩, ⟨⟨?_, ?_⟩, ?_⟩, ⟨whole_of_check ?_, ?_, whole_of_check ?_, ?_⟩,
    ⟨⟨?_, ?_⟩, ?_, ?_, whole_of_check ?_⟩⟩ <;> decide +kernel

/-! ## Starts, issue, results and releases -/

/-- Partition 1 with its lock's phaser as `x`, at cycle 1000; core 0 is `k`. -/
def locked (x : Phaser) (p : Part) (k : Core) : State :=
  { withPart (stateOf 0 .x k Tile.idle partOf1) fun _ => { p with phasers := Table.set Phaser.reset [] 0 x } with latch := Latch.none }

/-- A phaser that cores 0 and 2 have entered, at 900 and at `n`. -/
def bothIn (n : Nat) : Phaser :=
  { Phaser.reset with members := [(0, { Member.none with mode := some .sw, arr := 1 }), (2, { Member.none with mode := some .sw, arr := 1 })],
                      arrivals := [(0, some { Arrival.plain with time := 900 }), (2, some { Arrival.plain with time := n })] }

/-- A part of a group program that waits for its start tick. -/
def groupPart (count : Nat) : Machine.Part :=
  { partNone with status := .waiting, queue := 3, width := 1, height := 1, t0 := 900,
                   hdr := { Header256.zero with width := 1, height := 1, phmask := 1, gcount := count, gtag := 6 } }
def grouped (count t0 : Nat) (b : Block) (l : Option Launch) : State :=
  { State.reset with boot := 5, tickOn := true, now := 1000, queues := [(3, { ring with block := b, launch := l })],
                     parts := [(4, { groupPart count with t0 := t0 })] }

def late49 : State := locked (bothIn 950) { partOf1 with hdr := { partOf1.hdr with strag := 49 } } (coreOf 0 Regs.start)

theorem arrivals_of (x : Phaser) (a b : Arrival) (h : x.arrivals = [(0, some a), (2, some b)]) (n : Nat) (ha : n ≤ a.time) (hb : n ≤ b.time) :
    ∀ d c, x.arrival d = some c → n ≤ c.time := by
  intro d c hc
  simp only [Phaser.arrival, h, get_two] at hc
  split at hc
  · cases hc; exact ha
  · split at hc
    · cases hc; exact hb
    · exact absurd hc (by simp)

theorem test_meets_Starts :
    (Whole (locked Phaser.reset partOf1 (coreOf 0 Regs.start)) ∧ ((locked Phaser.reset partOf1 (coreOf 0 Regs.start)).core 0).part = some 1 ∧
      ((locked Phaser.reset partOf1 (coreOf 0 Regs.start)).core 0).gsize = 0 ∧ ((locked Phaser.reset partOf1 (coreOf 0 Regs.start)).core 9).part = none) ∧
    (Whole (grouped 1 900 (.start 4) none) ∧
      ((grouped 1 900 (.start 4) none).groupWaiting 6).filter (fun p => decide (((grouped 1 900 (.start 4) none).part p).t0 ≤ 1000)) = [4] ∧
      ((grouped 1 900 (.start 4) none).part 4).hdr.gcount ≤ 1 + 0 ∧ 1 + 0 < ((grouped 2 900 (.start 4) none).part 4).hdr.gcount ∧
      ((grouped 1 1001 (.start 4) none).groupWaiting 6).filter (fun p => decide (((grouped 1 1001 (.start 4) none).part p).t0 ≤ 1000)) = []) ∧
    (Whole (grouped 2 0 .place (some { launchOne with hdr := (groupPart 2).hdr })) ∧
      ((grouped 2 0 .place (some { launchOne with hdr := (groupPart 2).hdr })).queue 3).block = .place ∧ (groupPart 2).hdr.gcount ≠ 0 ∧
      (groupPart 2).hdr.gtag = 6) ∧
    (((grouped 2 900 (.start 4) none).queue 3).block = .start 4 ∧ ((grouped 2 900 (.start 4) none).part 4).status = .waiting ∧
      ((grouped 2 900 (.start 4) none).part 4).hdr.gtag = 6 ∧ ∀ p, p ≠ 3 → ((grouped 2 900 (.start 4) none).queue p).block ≠ .start 4) ∧
    (Whole (locked (bothIn 950) { partOf1 with hdr := { partOf1.hdr with strag := 49 } } (coreOf 0 Regs.start)) ∧
      (bothIn 950).arrival 0 = some { Arrival.plain with time := 900 } ∧ (∀ d c, (bothIn 950).arrival d = some c → 900 ≤ c.time) ∧
      2 ∈ (bothIn 950).counted ∧ (∀ b, (bothIn 950).arrival 2 = some b → 900 + 49 < b.time)) ∧
    ((late49.scopeOf 1 = [1] ∧ late49.phaser 1 0 = bothIn 950) ∧ (late49.part 1).queue = 0 ∧
      ((late49.queue 0).evtail + 128 - (late49.queue 0).evhead) % 128 ≤ 64 ∧ (late49.queue 0).evhead < 128 ∧ (late49.phaser 1 0).epoch = 0 ∧
      (late49.phaser 1 0).epoch ≠ 1 ∧ (late49.part 1).hdr.strag ≠ 0) ∧
    (∀ d ∈ (bothIn 949).counted, ∃ b, (bothIn 949).arrival d = some b ∧ b.time ≤ 900 + 49) ∧ partOf1.hdr.strag = 0 := by
  refine ⟨⟨whole_of_check ?_, ?_⟩, ⟨whole_of_check ?_, ?_⟩, ⟨whole_of_check ?_, ?_⟩, ⟨?_, ?_, ?_, ?_⟩, ⟨whole_of_check ?_, ?_,
    arrivals_of _ { Arrival.plain with time := 900 } { Arrival.plain with time := 950 } rfl _ (by decide) (by decide), ?_, ?_⟩, ⟨?_, ?_⟩, ?_, ?_⟩
  case refine_10 =>
    intro p hp
    have : ((grouped 2 900 (.start 4) none).queue p) = Queue.reset := by
      show (if 3 = p then _ else if p < 3 then _ else _) = _
      rw [if_neg (Ne.symm hp)]
      split <;> rfl
    rw [this]
    decide
  all_goals first
    | decide +kernel
    | (intro b hb; cases hb; decide)
    | (intro d hd; have : (bothIn 949).counted = [0, 2] := by decide +kernel
       rw [this] at hd
       simp only [List.mem_cons, List.not_mem_nil, or_false] at hd
       rcases hd with rfl | rfl <;> exact ⟨_, rfl, by decide⟩)

/-- A part of a group program that has its place, with the group's timeout due or not; a lock whose last arrival elsewhere was late. -/
def loadingPart (due : Bool) : State :=
  { withPid { pidOne with hdr := hdrTwo } (.start 9) with
    agenda := if due then [{ at_ := 2000000500, rank := rankAfter, key := 0, ev := .groupColaunchTimeout 6 }] else [] }
def lateElsewhere : State :=
  locked { bothIn 949 with release := some 1064 } { partOf1 with hdr := { partOf1.hdr with strag := 49 }, farLast := 960 } (coreOf 0 Regs.start)

theorem test_meets_Starts_group :
    (∀ due, Whole (loadingPart due) ∧ ((loadingPart due).queue 3).block = .start 9 ∧ ((loadingPart due).part 9).status = .waiting ∧
      ((loadingPart due).part 9).t0 = 0 ∧ ((loadingPart due).part 9).hdr.gcount ≠ 0 ∧ ((loadingPart due).part 9).resumeSave = none ∧
      (loadingPart due).image ((loadingPart due).part 9).image = some imageOf ∧
      (∀ n ∈ ((loadingPart due).part 9).tiles, (loadingPart due).quaysDrained n = true) ∧ NoStep (loadingPart due) 9) ∧
    (∀ e ∈ (loadingPart false).agenda, e.ev ≠ .groupColaunchTimeout ((loadingPart false).part 9).hdr.gtag) ∧
    ((∃ e ∈ (loadingPart true).agenda, e.ev = .groupColaunchTimeout ((loadingPart true).part 9).hdr.gtag) ∧
      ∀ e ∈ (loadingPart true).agenda, e.ev = .groupColaunchTimeout ((loadingPart true).part 9).hdr.gtag → e.at_ = 2000000500) ∧
    ((∀ k ∈ ([] : List Nat), k ≤ (grouped 1 900 (.start 4) none).tickAt 900) ∧
      ∃ k ∈ [4], (grouped 1 900 (.start 4) none).tickAt 900 = (grouped 1 900 (.start 4) none).tickAt ((grouped 1 900 (.start 4) none).part k).t0) ∧
    (Whole lateElsewhere ∧ lateElsewhere.scopeOf 1 = [1] ∧ (bothIn 949).arrival 0 = some { Arrival.plain with time := 900 } ∧
      (lateElsewhere.phaser 1 0).release ≠ none ∧ (lateElsewhere.part 1).farLast = 900 + 49 + 11 ∧ (lateElsewhere.part 1).hdr.strag = 49) := by
  have ha : (loadingPart true).agenda = [{ at_ := 2000000500, rank := rankAfter, key := 0, ev := .groupColaunchTimeout 6 }] := rfl
  refine ⟨fun due => ⟨whole_of_check ?_, ?_, ?_, ?_, ?_, ?_, ?_, ?_, fun e he => absurd he List.not_mem_nil⟩, fun e he => absurd he List.not_mem_nil,
    ⟨⟨_, List.mem_singleton_self _, ?_⟩, fun e he _ => ?ev⟩, ⟨?_, 4, List.mem_singleton_self _, ?_⟩, ⟨whole_of_check ?_, ?_⟩⟩
  case ev =>
    rw [ha] at he
    cases List.mem_singleton.mp he
    rfl
  all_goals try cases due
  all_goals decide +kernel

/-- Core 0 at a bundle of the index area, with a transfer on engine 0. -/
def atBundle (bits : Nat) (k : Core → Core) (x : Option Transfer) : State :=
  { stateOf 0 .x
      (k { coreOf 0 (regsOf 1 2 3 4) with pc := 0x20, due := 1000, relAt := 900, half0 := some { start := 0x20, ready := none } })
      { Tile.idle with dict := Table.set 0 [] 0 bits, index := [(0x20, 0)], engines := Table.set Engine.reset [] 0 { Engine.reset with xfer := x } } partOf1
    with latch := Latch.none }

/-- A verdict by name: 0 it issues, 1 it waits, 2 it slips, 3 it traps. -/
def verdictNo : Verdict → Nat
  | .go => 0 | .wait => 1 | .slip => 2 | .trap _ => 3
def trapIn : Verdict → Option TrapInfo
  | .trap t => some t
  | _ => none
theorem go_of (v : Verdict) (h : verdictNo v = 0) : v = .go := by cases v <;> simp [verdictNo] at h ⊢
theorem wait_of (v : Verdict) (h : verdictNo v = 1) : v = .wait := by cases v <;> simp [verdictNo] at h ⊢
theorem slip_of (v : Verdict) (h : verdictNo v = 2) : v = .slip := by cases v <;> simp [verdictNo] at h ⊢
theorem trap_of (v : Verdict) (t : TrapInfo) (h : trapIn v = some t) : v = .trap t := by cases v <;> simp_all [trapIn]
def fetchedBits : Fetched → Option (Nat × Bool)
  | .bits b m => some (b, m)
  | .bad _ => none
def fetchedBad : Fetched → Option TrapInfo
  | .bad t => some t
  | .bits _ _ => none
theorem bits_of (v : Fetched) (b : Nat) (m : Bool) (h : fetchedBits v = some (b, m)) : v = .bits b m := by cases v <;> simp_all [fetchedBits]
theorem bad_of (v : Fetched) (t : TrapInfo) (h : fetchedBad v = some t) : v = .bad t := by cases v <;> simp_all [fetchedBad]

/-- Bundles: nothing; xaddi x3, x3, 0x80; vshli v3, v4; and one whose CSTAMP is 7. -/
def xaddiBundle : Nat := 0x20198000004000000000000000000000000000000000000000000000000000000000000000000000002000000000000
def vshliBundle : Nat := 0x1200060200001120000000000000000000000000000000000008000000000000
def stampBundle : Nat := 7 * 2 ^ 16
def fed (slip : Option Nat) (beats : Nat) : State :=
  atBundle vshliBundle (fun k => { k with slip := slip })
    (some { transferOf Desc.reset (.input .v 4) 0 none with beats := beats, window := [] })
def waiting9 : Wait := { slot := 4, word := 0x55, issued := 900, limit := some 1000, bound := 7, what := .phaser 1 0, again := false }

theorem test_meets_IssueOfABundle :
    (((atBundle 0 id none).core 0).gen ≠ 1 ∧ (Core.idle).status ≠ .running) ∧
    (Whole (atBundle xaddiBundle id none) ∧ Ready1 (atBundle xaddiBundle id none) 0 ∧ NoTrapDue (atBundle xaddiBundle id none) 0 ∧
      (atBundle xaddiBundle id none).fetch 0 = .bits xaddiBundle false ∧
      (atBundle xaddiBundle id none).verdict 0 ((atBundle xaddiBundle id none).core 0).pc xaddiBundle none none = .go ∧
      Clean (atBundle xaddiBundle id none) 0) ∧
    (∀ s, s = atBundle xaddiBundle (fun k => { k with hm := true, regs := { k.regs with flights := [{ land := 1001, seq := 3, prio := 0, dest := .reg (.x 3), val := 8 }] } }) none →
      Whole s ∧ Ready1 s 0 ∧ NoTrapDue s 0 ∧ s.fetch 0 = .bits xaddiBundle false ∧ s.verdict 0 (s.core 0).pc xaddiBundle none none = .wait) ∧
    (Whole (fed none 2) ∧ Ready1 (fed none 2) 0 ∧ NoTrapDue (fed none 2) 0 ∧ (fed none 2).fetch 0 = .bits vshliBundle false ∧
      (fed none 2).verdict 0 ((fed none 2).core 0).pc vshliBundle none none = .slip ∧ ((fed none 2).core 0).slip = none) ∧
    (Whole (atBundle stampBundle id none) ∧ Ready1 (atBundle stampBundle id none) 0 ∧ NoTrapDue (atBundle stampBundle id none) 0 ∧
      (atBundle stampBundle id none).fetch 0 = .bits stampBundle false ∧
      (atBundle stampBundle id none).verdict 0 ((atBundle stampBundle id none).core 0).pc stampBundle none none =
        .trap { cause := 0x04, t0 := 0xFFF, t1 := 7, t2 := 100, imp := false } ∧ ((atBundle stampBundle id none).core 0).hm = false) ∧
    (∀ s, s = atBundle 0 (fun k => { k with pending := [{ due := 1000, info := { cause := 0x0B, t0 := 1, t1 := 2, t2 := 3, imp := true } }] }) none →
      Whole s ∧ Ready1 s 0 ∧ (s.core 0).forced = none ∧
        (s.core 0).imprecise s.now = some { cause := 0x0B, t0 := 1, t1 := 2, t2 := 3, imp := true }) ∧
    (∀ s, s = atBundle 0 (fun k => { k with half0 := none }) none → Whole s ∧ Ready1 s 0 ∧ NoTrapDue s 0 ∧
      s.fetch 0 = .bad { cause := 0x02, t0 := 0x20, t1 := 5, t2 := 0, imp := false }) ∧
    (∀ s, s = atBundle 0 (fun k => { k with forced := some { cause := 0x19, t0 := 1, t1 := 2, t2 := 3, imp := true } }) none → Whole s ∧
      Ready1 s 0 ∧ (s.core 0).forced = some { cause := 0x19, t0 := 1, t1 := 2, t2 := 3, imp := true }) ∧
    (Whole (atBundle 0 (fun k => { k with slip := some 936 }) none) ∧
      (atBundle 0 (fun k => { k with slip := some 936 }) none).fetch 0 = .bits 0 false ∧
      (atBundle 0 (fun k => { k with slip := some 936 }) none).verdict 0 0x20 0 none none = .go) ∧
    (Whole (fed (some 936) 2) ∧ ((fed (some 936) 2).core 0).slip ≠ none ∧ (fed (some 936) 2).fetch 0 = .bits vshliBundle false ∧
      (fed (some 936) 2).verdict 0 0x20 vshliBundle none none =
        .trap { cause := 0x05, t0 := 0, t1 := 0, t2 := 4, imp := false }) ∧
    (∀ s, s = atBundle 0 (fun k => { k with waits := [waiting9] }) none → Whole s ∧ (s.core 0).waits = [waiting9] ∧
      waiting9.limit = some s.now ∧ (s.core 0).hm = false ∧ s.pollWait 0 waiting9 = .pending ∧ (s.core 0).imprecise s.now = none) ∧
    (∀ s, s = atBundle 0 (fun k => { k with waits := [waiting9], pending := [{ due := 1000, info := { cause := 0x0B, t0 := 1, t1 := 2, t2 := 3, imp := true } }] }) none →
      Whole s ∧ s.pollWait 0 waiting9 = .pending ∧ (s.core 0).imprecise s.now = some { cause := 0x0B, t0 := 1, t1 := 2, t2 := 3, imp := true }) ∧
    (Whole (atBundle 0 id none) ∧ Clean (atBundle 0 id none) 0 ∧ ((atBundle 0 id none).core 0).status = .running ∧ ((atBundle 0 id none).core 0).gsize = 0) := by
  refine ⟨by decide +kernel, ⟨whole_of_check ?_, ⟨?_, ?_, ?_, ?_, ?_⟩, ⟨?_, ?_⟩, bits_of _ _ _ ?_, go_of _ ?_, rfl⟩, fun s h => ?held,
    ⟨whole_of_check ?_, ⟨?_, ?_, ?_, ?_, ?_⟩, ⟨?_, ?_⟩, bits_of _ _ _ ?_, slip_of _ ?_, ?_⟩,
    ⟨whole_of_check ?_, ⟨?_, ?_, ?_, ?_, ?_⟩, ⟨?_, ?_⟩, bits_of _ _ _ ?_, trap_of _ _ ?_, ?_⟩, fun s h => ?due, fun s h => ?bad, fun s h => ?forced,
    ⟨whole_of_check ?_, bits_of _ _ _ ?_, go_of _ ?_⟩, ⟨whole_of_check ?_, ?_, bits_of _ _ _ ?_, trap_of _ _ ?_⟩, fun s h => ?bound, fun s h => ?first, ⟨whole_of_check ?_, rfl, ?_⟩⟩
  case held => subst h; refine ⟨whole_of_check ?_, ⟨?_, ?_, ?_, ?_, ?_⟩, ⟨?_, ?_⟩, bits_of _ _ _ ?_, wait_of _ ?_⟩ <;> decide +kernel
  case due => subst h; refine ⟨whole_of_check ?_, ⟨?_, ?_, ?_, ?_, ?_⟩, ?_⟩ <;> decide +kernel
  case bad => subst h; refine ⟨whole_of_check ?_, ⟨?_, ?_, ?_, ?_, ?_⟩, ⟨?_, ?_⟩, bad_of _ _ ?_⟩ <;> decide +kernel
  case forced => subst h; refine ⟨whole_of_check ?_, ⟨?_, ?_, ?_, ?_, ?_⟩, ?_⟩ <;> decide +kernel
  case bound => subst h; refine ⟨whole_of_check ?_, ?_, ?_, ?_, rfl, ?_⟩ <;> decide +kernel
  case first => subst h; refine ⟨whole_of_check ?_, rfl, ?_⟩ <;> decide +kernel
  all_goals decide +kernel

/-- Core 0 with segment 4 open, a byte of it withheld, and its commit to come. -/
def snapOf : Snap :=
  { at_ := 990, pc := 0x20, regs := regsOf 1 2 3 4, tile := { claimed := [], descs := [], windows := [], shadow := [], vis := true }, pending := [],
    segseq := 6 }
def segmented (k : Core → Core) : State :=
  { stateOf 0 .x (k { coreOf 0 (regsOf 1 2 3 4) with segOpen := some 4, segNext := 4, snaps := [(4, snapOf)], overlay := [(0x1000, 7, 4)] }) Tile.idle
      partOf1 with latch := Latch.none }
def landing2 : Flight := { land := 1000, seq := 8, prio := 0, dest := .reg (.k 4), val := 9 }
def landing1 : Flight := { land := 1000, seq := 7, prio := 0, dest := .reg (.k 4), val := 8 }

theorem test_meets_Landings :
    (∀ s, s = segmented (fun k => { k with regs := { k.regs with flights := [landing1, landing2] } }) → Whole s ∧ Prevails s 0 landing2 ∧
      landing2.dest = .reg (.k 4) ∧ ∀ f ∈ (s.core 0).regs.flights, f.land ≤ s.now → f.dest ≠ .reg (.k 5)) ∧
    (Whole (segmented id) ∧ ([(0x1000, (1 : Byte)), (0x1001, 2)].map Prod.fst).Nodup ∧ (∀ e ∈ ((segmented id).core 0).snaps, e.1 ≠ 3) ∧
      (∃ e ∈ ((segmented id).core 0).snaps, e.1 = 4) ∧
      ((segmented id).core 0).overlay.find? (fun x => decide (x.2.2 = 4) && decide (x.1 = 0x1000)) = some (0x1000, 7, 4) ∧
      (∀ e ∈ ((segmented id).core 0).overlay, e.1 = 0x1001 → e.2.2 ≠ 4) ∧ Clean (segmented id) 0) := by
  refine ⟨fun s h => ⟨whole_of_check ?_, ⟨?_, ?_, ?_⟩, ?_, ?_⟩, ⟨whole_of_check ?_, ?_⟩⟩
  all_goals try subst h
  all_goals
    first
      | decide +kernel | (unfold Clean; decide +kernel)

def coming : Core := { coreOf 0 Regs.start with arriving := some Arrival.plain }
def coming1 : Core := { coreOf 1 Regs.start with arriving := some Arrival.plain }
def ended : Core := { coreOf 0 Regs.start with status := .ended, endAt := some 1000 }
def member (m : Option PhMode) (p : Option (Option PhMode)) (seen arr : Nat) : Member := { mode := m, view := m, pending := p, seen := seen, arr := arr }
def phaserWith (m : Member) (rel : Option Nat) : Phaser := { Phaser.reset with members := Table.set Member.none [] 0 m, release := rel }

theorem test_meets_ReleasesAndPhases :
    (Whole (locked (phaserWith (member (some .sw) none 0 0) none) partOf1 coming) ∧
      ((locked (phaserWith (member (some .sw) none 0 0) none) partOf1 coming).core 0).arriving = some Arrival.plain ∧
      (locked (phaserWith (member (some .sw) none 0 0) none) partOf1 coming).settled 0 false = true ∧ coming.phase % 2 = 0 ∧
      Arrival.plain.round = false ∧ (locked (phaserWith (member (some .sw) none 0 0) none) partOf1 coming).scopeRound 1 = false ∧
      (locked (phaserWith (member (some .sw) none 0 0) none) partOf1 Core.idle |>.core 0).arriving = none) ∧
    ({ locked (phaserWith (member (some .sw) none 0 0) none) partOf1 coming1 with
        tiles := Table.set Tile.idle [] 0 { Tile.idle with outs := [{ chan := 1, issue := 990, left := 1, due := none }] } }.settled 0 false = false) ∧
    (Whole (locked (phaserWith (member (some .sw) none 0 0) none) partOf1 ended) ∧
      ((locked (phaserWith (member (some .sw) none 0 0) none) partOf1 ended).core 0).endAt = some 1000 ∧ ended.phase % 2 = 0 ∧
      (((locked (phaserWith (member (some .sw) none 0 0) none) partOf1 ended).phaser 1 0).member 0).mode ≠ none ∧
      ¬ HasArrived (((locked (phaserWith (member (some .sw) none 0 0) none) partOf1 ended).phaser 1 0).member 0)) ∧
    (HasArrived (((locked (bothIn 900) partOf1 ended).phaser 1 0).member 0) ∧
      ((locked (bothIn 900) partOf1 ended).phaser 1 0).arrival 0 = some { Arrival.plain with time := 900 } ∧
      ((locked (bothIn 900) partOf1 ended).part 1).ending = false ∧ (locked (bothIn 900) partOf1 ended).scopeRound 1 = false) ∧
    (∀ s, s = locked { bothIn 900 with arrivals := [] } partOf1 ended → Whole s ∧ (s.core 0).endAt = some 1000 ∧ HasArrived ((s.phaser 1 0).member 0) ∧
      (s.phaser 1 0).arrival 0 = none ∧ 2 ∈ (s.phaser 1 0).counted ∧ (s.part 1).ending = false ∧ ((s.phaser 1 0).member 0).mode ≠ none ∧
      s.scopeRound 1 = false) ∧
    ({ partOf1 with ending := true }.ending = true) ∧
    (∀ s, s = locked { bothIn 950 with release := some 1000 } partOf1 (coreOf 0 Regs.start) → Whole s ∧ (s.phaser 1 0).release = some s.now ∧
      Quiet s 1 ∧ (s.part 1).preempt = none ∧ (s.part 1).forced = false ∧ (s.part 1).hdr.gcount = 0 ∧
      (∀ d a, (s.phaser 1 0).arrival d = some a → a.ended = false) ∧ (s.phaser 1 0).counted ≠ []) ∧
    (((locked (bothIn 950) partOf1 (coreOf 0 Regs.start)).phaser 1 0).release ≠ some 1000 ∧
      ((locked (bothIn 950) partOf1 (coreOf 0 Regs.start)).core 0).part = some 1 ∧
      ((locked (bothIn 950) partOf1 (coreOf 0 Regs.start)).core 0).status ≠ .stopped ∧ (Core.idle.part) ≠ some 1) ∧
    (∀ s, s = locked (phaserWith (member none (some (some .wo)) 0 0) (some 1000)) partOf1 (coreOf 0 Regs.start) → Whole s ∧
      (s.phaser 1 0).release = some s.now ∧ ((s.phaser 1 0).member 0).pending = some (some .wo) ∧ ((s.phaser 1 0).member 2).pending = none) := by
  refine ⟨⟨whole_of_check ?_, ?_⟩, ?_, ⟨whole_of_check ?_, ?_, ?_, ?_, ?_⟩, ⟨?_, ?_⟩,
    fun s h => ⟨whole_of_check ?_, ?_, ?_, ?_, ?_, ?_, ?_, ?_⟩, ?_, fun s h => ⟨whole_of_check ?_, ?_, ⟨?_, ?_, ?_⟩, ?_, ?_, ?_, ?arr, ?_⟩, ?_, fun s h => ⟨whole_of_check ?_, ?_⟩⟩
  all_goals try subst h
  case arr =>
    intro d a ha
    have h2 : (Table.get none [(0, some { Arrival.plain with time := 900 }), (2, some { Arrival.plain with time := 950 })] d) = some a := ha
    rw [get_two] at h2
    split at h2
    · cases h2; rfl
    · split at h2
      · cases h2; rfl
      · cases h2
  all_goals
    first
      | decide +kernel | (unfold HasArrived; decide +kernel)

/-- An END whose work is not done, in a partition that ends or in an exchange phase whose fragment is unwritten; an END before its tile has
observed the release that it waits on. -/
def endingPart : State := { locked Phaser.reset { partOf1 with ending := true } ended with tiles := (serving .get).tiles }
def endLate : State :=
  { locked (phaserWith (member (some .sw) none 0 0) none) partOf1 { ended with phase := 1 } with
      tiles := Table.set Tile.idle [] 0 { Tile.idle with outs := [{ chan := 1, issue := 990, left := 1, due := none }] } }
def endEarly : State := locked { bothIn 900 with arrivals := [], epoch := 1 } partOf1 ended

theorem test_meets_ReleasesAndPhases_end :
    (Whole endingPart ∧ (endingPart.core 0).part = some 1 ∧ (endingPart.part 1).ending = true ∧ endingPart.workDone 1 = false) ∧
    (Whole endLate ∧ (endLate.part 1).ending = false ∧ (endLate.core 0).endAt = some 1000 ∧
      (endLate.unbindAll 0).settledBy 0 (endLate.scopeRound 1) (max endLate.now (1000 + 1)) = false) ∧
    (Whole endEarly ∧ (endEarly.core 0).endAt = some 1000 ∧ Unobserved endEarly 1 0 ∧ ((endEarly.phaser 1 0).member 0).mode ≠ none ∧
      (∃ d ∈ (endEarly.phaser 1 0).counted, d ≠ 0) ∧
      (endEarly.unbindAll 0).settledBy 0 (endEarly.scopeRound 1) (max endEarly.now (1000 + 1)) = true) := by
  refine ⟨⟨whole_of_check ?_, ?_⟩, ⟨whole_of_check ?_, ?_⟩, ⟨whole_of_check ?_, ?_, ?_, ?_⟩⟩ <;>
    first | decide +kernel | (unfold Unobserved; decide +kernel)

/-- Core 0 of an exchange phase, whose release is a snapshot. -/
def rewound (m : Nat) (mode : Bool) : State :=
  segmented fun k => { k with mismatches := m, snaps := [(4, { snapOf with at_ := 997 }), (3, snapOf)], segOpen := if mode then some 4 else none }
def rerunning (m : Option Nat) (gcount : Nat) : State :=
  { withPart (stateOf 0 .x { coreOf 1 (regsOf 1 2 3 4) with relSnap := some snapOf } Tile.idle partOf1) fun p =>
      { p with rerun := m, phasers := [(0, { Phaser.reset with members := [(0, signaller)] })], hdr := { p.hdr with gcount := gcount } } with latch := Latch.none }
def laded (n : Nat) : State :=
  { withPart (stateOf 0 .x (coreOf 0 Regs.start) Tile.idle partOf1) fun p => { p with hdr := { p.hdr with lading := n } } with latch := Latch.none }
def restored (round : Option Nat) (resume : CodeAddr) : State :=
  { withPart (launching ring hdrBytes) id with
    parts := [(1, { pidOne with status := .running, t0 := 100, roundPhase := round, hdr := { hdrOne with resume := resume } })] }

/-- The same with ladings of 64 bytes: each tile's lading region at 0x1000, and its mirror-reserve at 0x4000. -/
def ladingCore : CoreImage :=
  { CoreImage.zero with regions := [{ w0 := 0x1000, w1 := 1, w2 := 0x10, w3 := 0 }, { w0 := 0x4000, w1 := 1, w2 := 0x50, w3 := 0 }] }
def ladingImage : Image :=
  { imageOf with tiles := [0, 1, 128, 129].map fun n => (n, { TileImage.zero with core0 := ladingCore }) }
def mirrored : State :=
  { restored (some 8) 0x20 with
    images := [(pidOne.image, some ladingImage)]
    parts := [(1, { pidOne with status := .running, t0 := 100, roundPhase := some 8, hdr := { hdrOne with resume := 0x20, lading := 64 } })]
    tiles := [0, 1, 128, 129].map fun n => (n, { Tile.idle with store := [(0x4000, BitVec.ofNat 8 (n + 1))] })
    cores := [0, 2, 256, 258].map fun c => (c, { Core.idle with status := .running, part := some 1, regions := ladingCore.table }) }

/-- After the restore from the own mirrors, and with every tile of the field row lost, where buddies are lost too. -/
def afterRestore (lost : Option (Nat × Nat)) : Option State :=
  match execRoundRestore 1 lost mirrored with
  | .next t => some t
  | _ => none

theorem restore_own : ∃ t, afterRestore none = some t ∧ Apart (t.core 0) 64 ∧ Memory.read (t.tile 0).store 0x1000 = 1 := by
  have h : (afterRestore none).any (fun t => decide ((t.core 0).lading + 64 ≤ (t.core 0).mirror) &&
      decide (Memory.read (t.tile 0).store 0x1000 = 1)) = true := by decide +kernel
  generalize afterRestore none = o at h ⊢
  cases o with
  | none => simp at h
  | some t =>
    simp only [Option.any, Bool.and_eq_true, decide_eq_true_eq] at h
    exact ⟨t, rfl, .inl h.1, h.2⟩

theorem test_meets_Rollback :
    ((rewound 0 true).core 9).part = none ∧
    (Whole (rewound 0 true) ∧ (rewound 0 true).now = 997 + 3 ∧ ((rewound 0 true).core 0).split = false ∧ ((rewound 0 true).core 0).part = some 1 ∧
      ((rewound 0 true).core 0).status ≠ .stopped ∧ ((rewound 0 true).core 0).hm = false ∧ ((rewound 0 true).core 0).gsize = 0 ∧
      ((rewound 0 true).core 0).hmEnd ≤ 997 ∧ ((rewound 0 true).tile 0).errors = [] ∧
      ((rewound 0 true).core 0).pos = 0 ∧ ((rewound 0 true).core 0).phase % 2 = 0 ∧
      ((rewound 0 true).core 0).snaps.find? (fun e => decide (e.2.at_ ≤ 997)) = some (4, { snapOf with at_ := 997 }) ∧
      ((rewound 0 true).core 0).snaps.find? (fun e => decide (e.2.at_ ≤ 996)) = some (3, snapOf) ∧
      ((rewound 0 true).core 0).mismatches = 0 ∧ 0 < ((rewound 1 true).core 0).mismatches) ∧
    (Whole (rerunning none 0) ∧ (rerunning none 0).now = 997 + 3 ∧ ((rerunning none 0).core 0).phase % 2 = 1 ∧
      ((rerunning none 0).part 1).rerun = none ∧ ((rerunning none 0).part 1).hdr.gcount = 0 ∧ ((rerunning none 2).part 1).hdr.gcount ≠ 0) ∧
    (Whole (rerunning (some 984) 0) ∧ ((rerunning (some 984) 0).part 1).rerun = some 984 ∧ (rerunning (some 984) 0).now = 984 + 16 ∧
      (rerunning (some 936) 0).now = 936 + 64) ∧
    (∀ s, s = { rerunning (some 976) 0 with now := 2000 } → Whole s ∧ s.now = 976 + 1024 ∧ (s.part 1).cores.Nodup ∧ 0 ∈ (s.part 1).cores ∧
      (s.core 0).relSnap = some snapOf ∧ ((s.phaser 1 0).member 0).mode ≠ none ∧ (s.phaser 1 0).members = [(0, signaller)] ∧ (s.tile 0).errors = []) ∧
    (((rerunning none 0).core 0).hm = false ∧ ((rerunning none 0).core 0).hmEnd ≤ 997) ∧
    (Whole (laded 0) ∧ Whole (laded 4096) ∧ 0 < ((laded 4096).part 1).hdr.lading ∧ 0 ∈ ((laded 4096).part 1).tiles ∧
      ∀ v ∈ ((laded 4096).part 1).tiles, ((laded 4096).part 1).buddy v = ((laded 4096).part 1).buddy 0 → v = 0) ∧
    (Whole (restored none 0xFFFFFFFF) ∧ ((restored none 0xFFFFFFFF).part 8).status = .none ∧ ((restored none 0xFFFFFFFF).part 1).status = .running ∧
      (restored none 0xFFFFFFFF).image ((restored none 0xFFFFFFFF).part 1).image = some imageOf ∧
      (restored none 0xFFFFFFFF).workDone 1 = true ∧ NoStep (restored none 0xFFFFFFFF) 1 ∧
      ((restored none 0xFFFFFFFF).part 1).roundPhase = none ∧ ((restored none 0xFFFFFFFF).part 1).ending = false) ∧
    (((restored (some 8) 0x20).part 1).roundPhase = some 8 ∧ ((restored (some 8) 0x20).part 1).hdr.lading = 0 ∧
      ((restored (some 8) 0x20).part 1).hdr.resume ≠ 0xFFFFFFFF) ∧
    (Whole mirrored ∧ mirrored.image (mirrored.part 1).image = some ladingImage ∧ mirrored.workDone 1 = true ∧
      (mirrored.part 1).hdr.lading = 64 ∧ (mirrored.part 1).tiles.Nodup ∧ ∀ u ∈ (mirrored.part 1).tiles, (mirrored.tile u).errors = []) ∧
    (LostIn none 0 ↔ False) ∧ LostIn (some (0, 0)) 0 ∧
    (∃ t, afterRestore none = some t ∧ Apart (t.core 0) 64 ∧ Memory.read (t.tile 0).store 0x1000 = 1) ∧
    { restored none 0xFFFFFFFF with tiles := (serving .get).tiles }.workDone 1 = false := by
  refine ⟨?_, ⟨whole_of_check ?_, ?_⟩, ⟨whole_of_check ?_, ?_⟩, ⟨whole_of_check ?_, ?_⟩, fun s h => ⟨whole_of_check ?_, ?_⟩, ?_,
    ⟨whole_of_check ?_, whole_of_check ?_, ?_⟩, ⟨whole_of_check ?_, ?_, ?_, ?_, ?_, fun e he => absurd he (List.not_mem_nil), ?_⟩, ?_,
    ⟨whole_of_check ?_, ?_⟩, by simp [LostIn], rfl, restore_own, ?_⟩
  all_goals try subst h
  all_goals decide +kernel

/-- A shift of sheaf row 1 of field 0, and a move of field column 2. -/
def shifting (x : Shift) (m : MoveState) : State :=
  { usual .x 0 0 0 0 0 with latch := Latch.none, shifts := [(1, some x)],
                            tiles := [270, 271, 398, 399].map fun n => (n, { Tile.idle with move := m, store := [(8, 1)] }) }
def shiftOne (owner : Option Nat) (copying : Bool) : Shift :=
  { dead := 3, step := 1, owner := owner, begun := true, copying := copying, second := false }
def moving (z : ZoneMove) : State := { usual .x 0 0 0 0 0 with latch := Latch.none, zones := [(2, some z)] }
def zoneOne (rows : List Nat) (copying : Bool) : ZoneMove :=
  { failed := 3, lost := false, rows := rows, pids := [], begun := [], seen := [], copying := copying, restore := [] }

theorem test_meets_Repair :
    (Whole (shifting (shiftOne (some 1) false) .waiting) ∧ shiftOf (shifting (shiftOne (some 1) false) .waiting) 0 1 = some (shiftOne (some 1) false) ∧
      ((shifting (shiftOne (some 1) false) .waiting).part 1).status ≠ .none ∧
      StepReady (shifting (shiftOne (some 1) false) .waiting) 0 1 (shiftOne (some 1) false) ∧
      ((shifting (shiftOne (some 1) false) .waiting).stepTiles 0 1 (shiftOne (some 1) false)).Nodup) ∧
    (Whole (shifting (shiftOne (some 1) true) .holding) ∧ shiftOf (shifting (shiftOne (some 1) true) .holding) 0 1 = some (shiftOne (some 1) true)) ∧
    (Whole (shifting (shiftOne none true) .still) ∧ shiftOf (shifting (shiftOne none true) .still) 0 1 = some (shiftOne none true) ∧
      (shiftOne none true).step ≤ 8 ∧ 1 ≠ 8 - (shiftOne none true).dead ∧ { shiftOne none true with dead := 7 }.step = 8 - 7) ∧
    ((shiftOne (some 9) true).second = false ∧ (shiftOne (some 9) true).step ≤ 8 ∧
      ((shifting (shiftOne (some 9) true) .moved).part 9).status = .none ∧
      Whole (shifting (shiftOne (some 9) true) .moved) ∧ shiftOf (shifting (shiftOne (some 9) true) .moved) 0 1 = some (shiftOne (some 9) true) ∧
      ∀ n ∈ (shifting (shiftOne (some 9) true) .moved).stepTiles 0 1 (shiftOne (some 9) true),
        ((shifting (shiftOne (some 9) true) .moved).tile n).move = .moved) ∧
    (Whole (usual .x 0 0 0 0 0) ∧ (usual .x 0 0 0 0 0).spare 7 = 5 ∧ 6 * 7 + 5 ∉ (usual .x 0 0 0 0 0).deadFields ∧
      zoneOf (usual .x 0 0 0 0 0) 7 = none ∧ 47 ∈ { usual .x 0 0 0 0 0 with deadFields := [47] }.deadFields ∧
      zoneOf (moving (zoneOne [4, 3] false)) 2 ≠ none) ∧
    ((moving (zoneOne [4, 3] false)).spare 2 = 5 ∧ (zoneOne [4, 3] false).failed = 3 ∧ (zoneOne [4, 3] false).failed ≠ 4 ∧
      (zoneOne [4, 3] false).lost = false ∧ { zoneOne [4, 3] false with lost := true }.lost = true) ∧
    (Whole (moving { zoneOne [4, 3] true with pids := [9], seen := [9] }) ∧
      (∀ pid ∈ [9], ((moving { zoneOne [4, 3] true with pids := [9], seen := [9] }).part pid).status ≠ .none → pid ∈ [9]) ∧
      (∀ n ∈ zoneTiles 2 4, ((moving { zoneOne [4, 3] true with pids := [9], seen := [9] }).tile n).move ≠ .holding)) ∧
    (Whole (moving (zoneOne [4, 3] true)) ∧ (zoneOne [4, 3] true).rows = 4 :: 3 :: [] ∧
      ∀ pid ∈ (zoneOne [4, 3] true).pids, ((moving (zoneOne [4, 3] true)).part pid).status = .none) ∧
    (Whole (moving (zoneOne [4, 3] false)) ∧ zoneOf (moving (zoneOne [4, 3] false)) 2 = some (zoneOne [4, 3] false) ∧
      (zoneOne [4, 3] false).rows.head? = some 4 ∧ ∀ pid ∈ (zoneOne [4, 3] false).pids, ((moving (zoneOne [4, 3] false)).part pid).status = .none) ∧
    (∀ s, s = moving { zoneOne [4, 3] false with pids := [1], begun := [1] } → Whole s ∧ (∃ pid ∈ [1], (s.part pid).status ≠ .none) ∧
      ∀ n ∈ zoneTiles 2 4, s.tileIdle n = true) ∧
    (Whole (moving (zoneOne [3] true)) ∧ (zoneOne [3] true).restore = [] ∧ (moving (zoneOne [3] true)).fieldRow 2 3 = (zoneOne [3] true).failed) := by
  refine ⟨⟨whole_of_check ?_, ?_, ?_, ?_, ?_⟩, ⟨whole_of_check ?_, ?_⟩, ⟨whole_of_check ?_, ?_⟩, ⟨?_, ?_, ?_, whole_of_check ?_, ?_⟩,
    ⟨whole_of_check ?_, ?_⟩, ?_, ⟨whole_of_check ?_, ?_⟩, ⟨whole_of_check ?_, ?_⟩, ⟨whole_of_check ?_, ?_⟩, fun s h => ⟨whole_of_check ?_, ?_⟩, ⟨whole_of_check ?_, ?_⟩⟩
  all_goals try subst h
  all_goals
    first
      | decide +kernel | (unfold StepReady; decide +kernel)

/-- A step whose exchange phase has yet to begin, and one whose tiles are not idle; the move of a row whose copy is under way. -/
def unready : State :=
  { shifting (shiftOne (some 1) false) .waiting with
    tiles := [270, 271, 398, 399].map fun n => (n, { Tile.idle with array := { Tile.idle.array with clears := [{ id := 3, acc := 1, bank0 := true, seen := false, due := 2000, issued := 990 }] } }),
    cores := [(540, coreOf 1 Regs.start)] }
def copyingRow : State :=
  { moving { zoneOne [4, 3] true with pids := [9], seen := [9] } with
    agenda := [{ at_ := 2000, rank := rankRelease, key := 0, ev := .zoneCopyEnd 2 4 }] }

theorem test_meets_Repair_waits :
    (Whole (shifting { shiftOne (some 1) false with begun := false } .still) ∧
      shiftOf (shifting { shiftOne (some 1) false with begun := false } .still) 0 1 = some { shiftOne (some 1) false with begun := false } ∧
      ((shifting { shiftOne (some 1) false with begun := false } .still).part 1).status ≠ .none) ∧
    (Whole unready ∧ shiftOf unready 0 1 = some (shiftOne (some 1) false) ∧ (unready.part 1).status ≠ .none ∧
      ¬ StepReady unready 0 1 (shiftOne (some 1) false)) ∧
    (Whole copyingRow ∧ zoneOf copyingRow 2 = some { zoneOne [4, 3] true with pids := [9], seen := [9] } ∧
      ∃ e ∈ copyingRow.agenda, e.ev = .zoneCopyEnd 2 4) := by
  refine ⟨⟨whole_of_check ?_, ?_⟩, ⟨whole_of_check ?_, ?_, ?_, ?_⟩, ⟨whole_of_check ?_, ?_, _, List.mem_singleton_self _, rfl⟩⟩ <;>
    first | decide +kernel | (unfold StepReady; decide +kernel)

/-! ## Encodings and steps -/

theorem test_meets_DecodeOfEncode :
    wfIn .k (.cmpiLe 3 15 0xFFFFFFFF) = true ∧ wfIn .v (.vcvt 1 639 .e4m3 .f32 .rs true) = true ∧ wfIn .w (.vadd 639 0 1 .n8 true) = true ∧
      wfIn .m (.ldw { base := 7, file := .m, reg := 9, off := 0xFFFFFC, post := true }) = true ∧ wfIn .x (.sbind 2 .w 635 true) = true ∧
      ((0 : BitVec 4) = 0 → false = false) ∧ ((15 : BitVec 4) = 0 → true = false) ∧
      commandWf (.mapPages 0x123456600000 0x8B00000000000005 3) = true ∧ commandWf (.loopc 0xFFFFFFFF) = true := by decide +kernel

theorem test_meets_StepKeepsTheCanonicalForm :
    Whole (usual .x 1 5 7 0 0) ∧ (match step (usual .x 1 5 7 0 0) with | .next _ => true | _ => false) = true :=
  ⟨whole_of_check (by decide +kernel), by decide +kernel⟩

/-- So does reset, whose rings are in their regions. -/
theorem test_meets_StepKeepsTheCanonicalForm_rings :
    Whole State.reset ∧ Ringed State.reset ∧ (match step State.reset with | .next _ => true | _ => false) = true := by
  have hc : ∀ n, State.reset.core n = Core.idle := fun n => rfl
  have ok : RingOk Core.idle.regs := ⟨.inl ⟨rfl, rfl⟩, .inl ⟨rfl, rfl⟩, by decide⟩
  refine ⟨whole_of_check (by decide +kernel), ⟨fun n => hc n ▸ ok, fun n e he => ?_, fun n x hx => ?_, fun n u hu => ?_, fun h => ?_, fun a b c d e f h => ?_,
    fun v hv => absurd hv List.not_mem_nil⟩, by decide +kernel⟩
  · rw [hc] at he; exact absurd he List.not_mem_nil
  · rw [hc] at hx; exact absurd hx (by simp [Core.idle])
  · rw [hc] at hu; exact absurd hu (by simp [Core.idle])
  · exact absurd h (by decide)
  · exact absurd h (by simp [State.reset, Latch.none])

/-- Queue 3 with a command word whose OPC is `b` at its head. -/
def withOpc (b : Byte) (priv : Bool) (base : Nat) : State := { queued { ring with priv := priv, base := base } with tier := Memory.write [] 0x50003F b }
def served (s : State) (q : Nat) : Bool := match s.serve q with
  | .run _ _ => true
  | .done _ => false

theorem test_meets_StepRunsWhatIsDue :
    (∀ s, s = { usual .x 1 5 7 0 0 with latch := { bundle 0 .x with todo := [(.k, 0x0128443000000000)] } } →
      s.latch.active = true ∧ Reads .k 0x0128443000000000 false 5 (.add 1 2 3)) ∧
    ((usual .x 1 5 7 0 0).latch.active = true ∧ (usual .x 1 5 7 0 0).latch.todo = []) ∧
    (∀ s, s = { State.reset with agenda := [{ at_ := 7, rank := 0, key := 0, ev := .powerOn }] } → s.latch.active = false ∧ ServesNothing s) ∧
    (State.reset.latch.active = false ∧ State.reset.nextQueue = none ∧ State.reset.agenda = []) ∧
    (Whole (queued ring) ∧ (queued ring).latch.active = false ∧ (queued ring).nextQueue = some 3 ∧ (queued ring).agendaFirst = false) ∧
    (Whole (withOpc 8 false 0x300000) ∧ (withOpc 8 false 0x300000).ringWord 3 7 = some 0x0800000000000000 ∧ commandWords 8 = some 1 ∧
      (withOpc 8 false 0x300000).ringWords 3 7 1 = some [0x0800000000000000] ∧ decodeCommand [0x0800000000000000] = some (.loopc 0) ∧
      ((withOpc 8 false 0x300000).queue 3).seek = 0 ∧ ((withOpc 8 false 0x300000).queue 3).skip = 0 ∧ commandPriv 8 = false ∧
      served (withOpc 8 false 0x300000) 3 = true) ∧
    (Whole (withOpc 0x39 false 0x300000) ∧ (withOpc 0x39 false 0x300000).ringWord 3 7 = some 0x3900000000000000 ∧ commandWords 0x39 = some 1 ∧
      (withOpc 0x39 false 0x300000).ringWords 3 7 1 = some [0x3900000000000000] ∧ (decodeCommand [0x3900000000000000]).isSome = true ∧
      commandPriv 0x39 = true ∧ ((withOpc 0x39 false 0x300000).queue 3).priv = false ∧ ((withOpc 0x39 true 0x300000).queue 3).priv = true ∧
      served (withOpc 0x39 false 0x300000) 3 = false) ∧
    ((withOpc 0x55 false 0x300000).ringWord 3 7 = some 0x5500000000000000 ∧ commandWords 0x55 = none ∧
      (withOpc 8 false 0x600000).ringWord 3 7 = none) := by
  refine ⟨fun s h => ⟨?_, ⟨_, rfl, ?_, ?_, ?_⟩⟩, ?_, fun s h => ⟨?_, .inl ?_⟩, ?_, ⟨whole_of_check ?_, ?_⟩, ⟨whole_of_check ?_, ?_⟩, ⟨whole_of_check ?_, ?_⟩, ?_⟩
  all_goals try subst h
  all_goals decide +kernel

/-! ## Ill-formed terms, each refused by the check it fails -/

/-- A memory form's operands. -/
def memAt (f : File) (r : BitVec 10) : MemOp := { base := 1, file := f, reg := r, off := 0, post := false }

theorem test_wf_refuses_register_numbers :
    wfM (.ldw (memAt .k 32)) = false ∧ wfM (.ldw (memAt .m 32)) = false ∧ wfM (.stb (memAt .v 640)) = false ∧ wfM (.std (memAt .w 1023)) = false ∧
      wfM (.ldv (memAt .v 640) .raw) = false ∧ wfM (.spill .v 640) = false ∧ wfM (.fill .w 640) = false ∧
      wfIn .v (.vadd 640 0 0 .i8 false) = false ∧ wfIn .v (.vadd 0 640 0 .i8 false) = false ∧ wfIn .w (.vadd 0 0 640 .i8 false) = false ∧
      wfIn .v (.vfma 0 0 0 640 .f32 .rne) = false ∧ wfIn .w (.vmov 0 640) = false ∧ wfIn .v (.vrng 640 .i8) = false ∧
      wfIn .x (.sbind 0 .v 631 true) = false ∧ wfIn .x (.sbind 0 .v 640 true) = false := by decide +kernel

theorem test_wf_refuses_files_and_views :
    wfM (.ldv (memAt .k 1) .raw) = false ∧ wfM (.stv (memAt .m 1)) = false ∧ wfM (.ldvs (memAt .v 1) .bf24 0) = false ∧
      wfM (.ldvs (memAt .v 1) .blo 0) = false ∧ wfM (.ldvs (memAt .v 1) .bhi 0) = false := by decide +kernel

theorem test_wf_refuses_copies :
    wfIn .k (.xcopy .p 16 0) = false ∧ wfIn .k (.xcopy .v 0 32) = false ∧ wfIn .m (.xcopy .x 16 0) = false ∧ wfIn .x (.xcopy .k 0 16) = false ∧
      wfIn .v (.xcopy .k 32 0) = false ∧ wfIn .w (.xcopy .v 640 0) = false ∧ wfIn .k (.xcopyLane .x 0 0 0) = false ∧
      wfIn .m (.xcopyLane .p 0 0 0) = false ∧ wfIn .x (.xcopyLane .k 0 0 0) = false ∧ wfIn .k (.xcopyBcast .m 0 0) = false ∧
      wfIn .v (.xcopyBcast .k 0 0) = false ∧ wfIn .x (.xcopyBcast .p 0 0) = false := by decide +kernel

theorem test_wf_refuses_numbers_of_units :
    wfIn .k (.lidx 1 6) = false ∧ wfIn .k (.rotset 0x80) = false ∧ wfIn .k (.rotset 0x8000) = false ∧ wfIn .x (.pregSw 0) = false ∧
      wfIn .x (.pregSo 0) = false ∧ wfIn .x (.pregWo 0) = false ∧ wfIn .x (.pdrop 0) = false ∧ wfIn .x (.scfg 6 0 0) = false ∧
      wfIn .x (.sgo 7) = false ∧ wfIn .x (.swait 6 0) = false ∧ wfIn .x (.sfree 6) = false ∧ wfIn .x (.sbind 6 .v 632 true) = false ∧
      wfIn .x (.mcfg 6 0 0) = false ∧ wfIn .x (.mcfg 5 4 0) = false ∧ wfIn .x (.mcfg 15 0 0) = false ∧ wfIn .x (.mcfg 8 1 0) = false := by
  decide +kernel

theorem test_wf_refuses_other_slots :
    wfIn .k (.vadd 0 0 0 .i8 false) = false ∧ wfIn .m (.add 1 2 3) = false ∧ wfIn .v (.aadd 1 2 3) = false ∧ wfIn .w (.send 0 0 0) = false ∧
      wfIn .x .mark = false ∧ wfIn .k (.powerOn) = false := by decide +kernel

theorem test_wf_refuses_commands :
    commandWf (.launch true 0 0x80) = false ∧ commandWf (.launchi true 0 0x100 4) = false ∧ commandWf (.launchi true 0 0x104 8) = false ∧
      commandWf (.ifmem 0 0 8 0) = false ∧ commandWf (.ifmem 0 1 4 0) = false ∧
      commandWf (.copyht true 0 true 0 0 32) = false ∧ commandWf (.copyht true 0 true 0 0 0x100000040) = false ∧
      commandWf (.mapPages 0x100000 0 1) = false := by decide +kernel

/-! ## Single steps -/

/-- What the flights of a step leave in a register, none where the step does not answer a next state. -/
def lands (i : Instr) (s : State) (r : RegId) : Option Vec :=
  match exec i s with
  | .next t => ((t.me.regs.flights.find? fun f => decide (f.dest = .reg r)).map fun f => f.val)
  | _ => none

/-- R88: sums wrap. -/
theorem test_add_wraps : lands (.add 5 1 2) (usual .k 0 0xFFFFFFFFFFFFFFFF 2 0 0) (.k 5) = some 1 := by decide +kernel

/-- R89: a quotient is truncated toward zero. -/
theorem test_div_truncates : lands (.div 5 1 2) (usual .k 0 (BitVec.ofInt 64 (-7)) 2 0 0) (.k 5) = some 0xFFFFFFFFFFFFFFFD := by decide +kernel

/-- Table 4.1: a shift by 64 or more leaves 0. -/
theorem test_shl_past_the_width : lands (.shl 5 1 2) (usual .k 0 3 65 0 0) (.k 5) = some 0 := by decide +kernel

/-- R94: PSET ignores bit 0. -/
theorem test_pset_keeps_p0 : lands (.pset 1) (usual .k 0 0x0000000000000002 0 0 0) (.p 1) = some 1 ∧
    lands (.pset 1) (usual .k 0 1 0 0 0) (.p 0) = none := by decide +kernel

/-- R110: a TRAP suppresses its bundle and saves the pc, the cause and its immediate. -/
theorem test_trap_enters_the_handler :
    (match exec (.trap 0x12345678) (usual .k 0 0 0 0 0) with
      | .next t => decide ((t.core 0).regs.tcause = 0x28 ∧ (t.core 0).regs.tpc = 0x20 ∧ (t.core 0).hm = true ∧ (t.core 0).regs.tinfo0 = 0x12345678)
      | _ => false) = true := by decide +kernel

/-- R61: XADDI adds its extended immediate. -/
theorem test_xaddi_adds : lands (.xaddi 3 1 0x80) (usual .x 0 5 0 0 0) (.x 3) = some 0x85 := by decide +kernel

/-! ## Words that the spec gives, a family each -/

/-- Chapters 02, 04, 08, 11, 16 to 18, 20, 21: the K-slot words that the spec gives with their instructions. -/
theorem test_words_of_the_k_slot :
    Reads .k 0x20194DFFFFFFF800 false 3 (.addi 5 6 0xFFFFFFFC) ∧ Reads .k 0x4200000004000000 false 0 (.call 0x10) ∧
      Reads .k 0x4307C00000000000 false 0 (.ret 31) ∧ Reads .k 0x2700800000000000 false 0 (.movi 2 0) ∧
      Reads .k 0x4500000000C00004 false 0 (.loopi 3 4) ∧ Reads .k 0x4700C00000000000 false 0 (.lidx 3 0) ∧
      Reads .k 0x0100843000000000 false 0 (.add 2 2 3) ∧ Reads .k 0x2001C40000000000 false 0 (.addi 7 2 0) ∧
      Reads .k 0x402000000AC00000 false 4 (.br 0x2B) ∧ Reads .k 0x40003FFFF5000000 false 0 (.br 0xFFFFD4) ∧
      Reads .k 0xF000000000000033 false 0 (.ext 0x33) ∧ Reads .k 0x3101981500000000 false 0 (.cmpiLen 3 6 0x800000) ∧
      Reads .k 0x3102D00000000000 false 0 (.cmpiEq 5 20 0) ∧ Reads .k 0x5400C00000040008 false 0 (.lockAnd 3 false false 8) ∧
      Reads .k 0x5400C00000040010 false 0 (.lockAnd 3 false false 16) ∧ Reads .k 0x5400000000002000 false 0 (.lock false false 8192) ∧
      Reads .k 0x5701000000000000 false 0 (.lkstat 4) ∧ Reads .k 0x5001C00000000000 false 0 (.tick 7) ∧
      Reads .k 0x5300120000000000 false 0 (.sleept 9) ∧ Reads .k 0x5600000000000000 false 0 (.endProg 0) ∧
      Reads .k 0x6500000000000000 false 0 (.tret) ∧ Reads .k 0x6500000200000000 false 0 (.tretSkip) ∧
      Reads .k 0x6700010000000200 false 0 (.esc 0x80000001) ∧ Reads .k 0x6730000000001E00 false 6 (.esc 0x0F) ∧
      Reads .k 0x5200000000000000 false 0 (.tadj) ∧ Reads .k 0x0201004000000000 false 0 (.sub 4 0 4) ∧
      Reads .k 0x0501464000000000 false 0 (.xor 5 3 4) ∧ Reads .k 0x20018C0008000000 false 0 (.addi 6 6 0x40000) ∧
      Reads .k 0x2105680000010000 false 0 (.andi 21 20 0x80) ∧ Reads .k 0x4800000006000400 false 0 (.rotset 0x00030002) ∧
      Reads .k 0x6005000060000000 false 0 (.csrr 20 0x003) ∧ Reads .k 0xE00400C070000000 false 0 (.xcopy .x 3 7) ∧
      Reads .k 0xE004004010000000 false 0 (.xcopy .x 1 1) := by
  refine ⟨?_, ?_, ?_, ?_, ?_, ?_, ?_, ?_, ?_, ?_, ?_, ?_, ?_, ?_, ?_, ?_, ?_, ?_, ?_, ?_, ?_, ?_, ?_, ?_, ?_, ?_, ?_, ?_, ?_, ?_, ?_, ?_, ?_⟩ <;> exact ⟨_, rfl, rfl, rfl, rfl⟩

/-- Chapters 02, 05, 07, 16, 17: the M-slot words. -/
theorem test_words_of_the_m_slot :
    Reads .m 0x1800A02800010000 false 0 (.ldv { base := 2, file := .v, reg := 10, off := 0x40, post := false } .raw) ∧
      Reads .m 0x1801200C00000080 false 0 (.ldv { base := 4, file := .v, reg := 3, off := 0, post := false } .bf24) ∧
      Reads .m 0x2200801400010000 false 0 (.stw { base := 2, file := .k, reg := 5, off := 0x40, post := false }) ∧
      Reads .m 0x1400801800010000 false 0 (.ldw { base := 2, file := .k, reg := 6, off := 0x40, post := false }) ∧
      Reads .m 0x3000000000000000 false 0 (.mark) ∧ Reads .m 0x0600800000040000 false 0 (.amovi 2 0x4000) ∧
      Reads .m 0x1600302814020000 false 0 (.ldd { base := 0, file := .w, reg := 10, off := 0x50080, post := false }) ∧
      Reads .m 0x1A28200C00040000 false 5 (.ldacc { base := 0, file := .v, reg := 3, off := 256, post := false }) ∧
      Reads .m 0x2428202404800000 false 5 (.stv { base := 0, file := .v, reg := 9, off := 0x12000, post := false }) := by
  refine ⟨?_, ?_, ?_, ?_, ?_, ?_, ?_, ?_, ?_⟩ <;> exact ⟨_, rfl, rfl, rfl, rfl⟩

/-- Chapters 02, 06, 11, 16: the V-slot words. -/
theorem test_words_of_the_v_slot :
    Reads .v 0x2300180501606000 false 0 (.vfma 12 10 11 12 .f32 .rne) ∧ Reads .v 0x3800280200020080 false 0 (.vcvt 20 4 .bf16 .f32 .rs false) ∧
      Reads .v 0x2E000C0280000000 false 0 (.vfexp2 6 5 .f32) ∧ Reads .v 0xF000000000000082 false 0 (.ext 0x82) ∧
      Reads .v 0x15000C0060000000 false 0 (.vmovi 6 0x600000 .i32) ∧ Reads .v 0x4400260181E00001 false 0 (.vslide 19 3 15 .i32 1) ∧
      Reads .v 0x2300080B00E08800 false 0 (.vfma 4 22 7 17 .f32 .rne) ∧ Reads .v 0xE0000181D0400000 false 0 (.xcopyLane .k 6 29 0) ∧
      Reads .v 0x30280A0080000002 false 5 (.vfactGelu 5 1 .f32) ∧ Reads .v 0x3928120280C00001 false 5 (.vqblkB10 9 5 6 .rne) ∧
      Reads .w 0xE0040140A0000000 false 0 (.xcopy .x 5 10) := by
  refine ⟨?_, ?_, ?_, ?_, ?_, ?_, ?_, ?_, ?_, ?_, ?_⟩ <;> exact ⟨_, rfl, rfl, rfl, rfl⟩

/-- Chapters 10, 11, 14 to 17, 20, 21: the X-slot words. -/
theorem test_words_of_the_x_slot :
    Reads .x 0x0201980000040000 false 0 (.xaddi 3 3 0x80) ∧ Reads .x 0x0101800008000000 false 0 (.xmovi 3 0x10000) ∧
      Reads .x 0x1000298000000000 false 0 (.send 5 3 0) ∧ Reads .x 0x1100120000000000 false 0 (.recv 2 4 0) ∧
      Reads .x 0x12A0490000000000 true 4 (.sendrAddF32 9 2 0) ∧ Reads .x 0x1300400000000000 false 0 (.recvr 8 0 0) ∧
      Reads .x 0x14002B0000000000 false 0 (.chst 5 6) ∧ Reads .x 0x2000F00000000000 false 0 (.pregWo 7) ∧
      Reads .x 0x2100600000000000 false 0 (.pdrop 3) ∧ Reads .x 0x2200600000000000 false 0 (.psig 3) ∧
      Reads .x 0x2300600000000064 false 0 (.pwait 3 100) ∧ Reads .x 0x3000030000000000 false 0 (.scfg 0 0 3) ∧
      Reads .x 0x3102004F20000000 false 0 (.sbind 2 .v 633 false) ∧ Reads .x 0x3205000000000000 false 0 (.sfree 5) ∧
      Reads .x 0x3301000000000001 false 0 (.swait 1 1) ∧ Reads .x 0x3401000000000000 false 0 (.sgo 1) ∧
      Reads .x 0x30016A0000000000 false 0 (.scfg 1 6 10) ∧ Reads .x 0x4002000000000000 false 0 (.omclaim 4) ∧
      Reads .x 0x4100200000000000 false 0 (.omrel 4) ∧ Reads .x 0x4300000300000000 false 0 (.mgo true true 0) ∧
      Reads .x 0x4200140000000000 false 0 (.mcfg 0 0 5) ∧ Reads .x 0x42001B8000000000 false 0 (.mcfg 14 0 6) ∧
      Reads .x 0x42002C0400000000 false 0 (.mcfg 0 1 11) ∧ Reads .x 0x42000A8000000000 false 0 (.mcfg 10 0 2) ∧
      Reads .x 0x4500000000000001 false 0 (.mwait 1) ∧ Reads .x 0x4400000000000001 false 0 (.mswap 1) ∧
      Reads .x 0x4600C00000000004 false 0 (.mred 3 4) ∧ Reads .x 0x4700C00000000000 false 0 (.mclr 3) ∧
      Reads .x 0x4803800000000000 false 0 (.mstat 7) ∧ Reads .x 0x6001180000000000 false 0 (.coll 2 3) ∧
      Reads .x 0x6100180000000100 false 0 (.cwait 3 256) ∧ Reads .x 0x7004230000000000 false 0 (.osend 66 3 0) ∧
      Reads .x 0x7104240000000040 false 0 (.orecv 66 4 64) ∧ Reads .x 0x7200000064000000 false 0 (.ogap 1600) ∧
      Reads .x 0x7300280000000000 false 0 (.over 5) ∧ Reads .x 0xF000000000010001 false 0 (.ext 0x10001) ∧
      Reads .x 0x11000A8000002000 false 0 (.recv 1 5 8192) ∧ Reads .x 0x1000020000000010 false 0 (.send 0 4 16) := by
  refine ⟨?_, ?_, ?_, ?_, ?_, ?_, ?_, ?_, ?_, ?_, ?_, ?_, ?_, ?_, ?_, ?_, ?_, ?_, ?_, ?_, ?_, ?_, ?_, ?_, ?_, ?_, ?_, ?_, ?_, ?_, ?_, ?_, ?_, ?_, ?_, ?_, ?_, ?_⟩ <;> exact ⟨_, rfl, rfl, rfl, rfl⟩
end Sys2Proof.Tests
end

section
/-! The stage advance (R31): what it does to the predicates, to the writes in flight and to the names of the rings. -/

namespace Sys2Proof.Machine

open Claims

/-! ## The stage ladder -/

theorem getLsbD_setPred (p : BitVec 16) (n j : Nat) (b : Bool) (hn : n < 16) :
    (setPred p n b).getLsbD j = if j = n then b else p.getLsbD j := by
  have hbit : (BitVec.ofNat 16 (2 ^ n)).getLsbD j = decide (j = n) := by
    simp only [BitVec.getLsbD_ofNat, Nat.testBit_two_pow]
    grind
  have hlow : p.getLsbD j = true → j < 16 := BitVec.lt_of_getLsbD
  cases b
  · simp only [setPred, Bool.false_eq_true, if_false, BitVec.getLsbD_and, BitVec.getLsbD_not, hbit]
    grind
  · simp only [setPred, if_true, BitVec.getLsbD_or, hbit]
    grind

/-- Predicates written one after another, each with a value that its number gives. -/
theorem getLsbD_foldl_setPred (v : Nat → Bool) (j : Nat) (ns : List Nat) (p : BitVec 16) (h : ∀ n ∈ ns, n < 16) :
    (ns.foldl (fun q n => setPred q n (v n)) p).getLsbD j = if j ∈ ns then v j else p.getLsbD j := by
  induction ns generalizing p with
  | nil => rfl
  | cons n ns ih =>
    obtain ⟨hn, hns⟩ := List.forall_mem_cons.1 h
    rw [List.foldl_cons, ih _ hns, getLsbD_setPred p n j (v n) hn]
    by_cases hj : j = n
    · subst hj
      simp only [List.mem_cons, true_or, if_true, ite_self]
    · simp only [List.mem_cons, hj, false_or, if_false]

theorem Regs.getLsbD_climb_p (r : Regs) (f : Bool) (j : Nat) :
    (r.climb f).p.getLsbD j =
      if j = 8 then f else if j ∈ [15, 14, 13, 12, 11, 10, 9] then r.p.getLsbD (j - 1) else r.p.getLsbD j := by
  unfold Regs.climb
  rw [getLsbD_setPred _ 8 j f (by decide),
    getLsbD_foldl_setPred (fun n => r.p.getLsbD (n - 1)) j [15, 14, 13, 12, 11, 10, 9] r.p (by decide)]

theorem Regs.climb_p_below (r : Regs) (f : Bool) (j : Nat) (hj : j < 8) : (r.climb f).p.getLsbD j = r.p.getLsbD j := by
  have hout : j ∉ [15, 14, 13, 12, 11, 10, 9] := by
    simp only [List.mem_cons, List.not_mem_nil, or_false]
    omega
  rw [r.getLsbD_climb_p f j, if_neg (by omega), if_neg hout]

theorem Regs.climb_p_foot (r : Regs) (f : Bool) : (r.climb f).p.getLsbD 8 = f := r.getLsbD_climb_p f 8

theorem Regs.climb_p_rung (r : Regs) (f : Bool) (j : Nat) (h1 : 1 ≤ j) (h7 : j ≤ 7) :
    (r.climb f).p.getLsbD (8 + j) = r.p.getLsbD (8 + j - 1) := by
  have hin : 8 + j ∈ [15, 14, 13, 12, 11, 10, 9] := by
    simp only [List.mem_cons, List.not_mem_nil, or_false]
    omega
  rw [r.getLsbD_climb_p f (8 + j), if_neg (by omega), if_pos hin]

/-! ## The writes in flight -/

/-- A write in flight after the stage advance: one to a rung of the ladder goes one rung up, and out of p15 it is discarded. -/
def Flight.climbed (h : Flight) : Option Flight :=
  match h.dest with
  | .reg (.p n) => if n < 8 then some h else if n < 15 then some { h with dest := .reg (.p (n + 1)) } else none
  | _ => some h

theorem Regs.climb_flights (r : Regs) (f : Bool) : (r.climb f).flights = r.flights.filterMap Flight.climbed := rfl

theorem Flight.climbed_of_pred (h : Flight) (n : Nat) (hd : h.dest = .reg (.p n)) :
    h.climbed = if n < 8 then some h else if n < 15 then some { h with dest := .reg (.p (n + 1)) } else none := by
  simp only [Flight.climbed, hd]

theorem Flight.climbed_of_not_pred (h : Flight) (hd : ∀ n, h.dest ≠ .reg (.p n)) : h.climbed = some h := by
  unfold Flight.climbed
  split
  · next n hn => exact absurd hn (hd n)
  · rfl

theorem Flight.climbed_eq_some_iff (h g : Flight) :
    h.climbed = some g ↔ (h = g ∧ ∀ n, h.dest = .reg (.p n) → n < 8) ∨
      ∃ n, h.dest = .reg (.p n) ∧ 8 ≤ n ∧ n < 15 ∧ g = { h with dest := .reg (.p (n + 1)) } := by
  by_cases hp : ∃ n, h.dest = .reg (.p n)
  · obtain ⟨n, hn⟩ := hp
    have hname : ∀ m, h.dest = .reg (.p m) → m = n := fun m hm => by
      rw [hn] at hm
      injection hm with hm
      injection hm with hm
      exact hm.symm
    rw [h.climbed_of_pred n hn]
    by_cases h8 : n < 8
    · rw [if_pos h8, Option.some_inj]
      constructor
      · exact fun hg => .inl ⟨hg, fun m hm => hname m hm ▸ h8⟩
      · rintro (⟨hg, -⟩ | ⟨m, hm, hm8, -, -⟩)
        · exact hg
        · exact absurd (hname m hm) (by omega)
    · rw [if_neg h8]
      constructor
      · intro hg
        by_cases h15 : n < 15
        · rw [if_pos h15, Option.some_inj] at hg
          exact .inr ⟨n, hn, Nat.le_of_not_lt h8, h15, hg.symm⟩
        · rw [if_neg h15] at hg
          exact absurd hg (Option.some_ne_none g).symm
      · rintro (⟨-, hlow⟩ | ⟨m, hm, -, hm15, hg⟩)
        · exact absurd (hlow n hn) h8
        · obtain rfl := hname m hm
          rw [if_pos hm15, hg]
  · rw [h.climbed_of_not_pred (not_exists.1 hp), Option.some_inj]
    constructor
    · exact fun hg => .inl ⟨hg, fun n hn => absurd ⟨n, hn⟩ hp⟩
    · rintro (⟨hg, -⟩ | ⟨n, hn, -⟩)
      · exact hg
      · exact absurd ⟨n, hn⟩ hp

theorem Regs.mem_climb_flights (r : Regs) (f : Bool) (g : Flight) :
    g ∈ (r.climb f).flights ↔ (g ∈ r.flights ∧ ∀ n, g.dest = .reg (.p n) → n < 8) ∨
      ∃ h ∈ r.flights, ∃ n, h.dest = .reg (.p n) ∧ 8 ≤ n ∧ n < 15 ∧ g = { h with dest := .reg (.p (n + 1)) } := by
  simp only [Regs.climb_flights, List.mem_filterMap, Flight.climbed_eq_some_iff, and_or_left, exists_or]
  refine or_congr ⟨?_, fun ⟨hm, hlow⟩ => ⟨g, hm, rfl, hlow⟩⟩ Iff.rfl
  rintro ⟨h, hm, rfl, hlow⟩
  exact ⟨hm, hlow⟩

/-! ## The rings -/

theorem turnedBack_zero (rr : Nat) : turnedBack 0 rr = rr := rfl

theorem turnedBack_of_pos (rot rr : Nat) (h : 0 < rot) : turnedBack rot rr = (rr + 8 * rot - 1) % (8 * rot) :=
  if_neg (Nat.ne_of_gt h)

theorem Regs.advance_eq (r : Regs) (f : Bool) :
    r.advance f = { r with
      rrbv := turnedBack r.rotv r.rrbv, rrbw := turnedBack r.rotw r.rrbw,
      p := (r.climb f).p, flights := (r.climb f).flights } := rfl

/-- A ring whose base is one place back names by `n + 1` what it named by `n` (R30, R31). -/
theorem physical_turnedBack (rot rr n : Nat) (hr : rr < 8 * rot) (hn : n + 1 < 8 * rot) :
    physical rot (turnedBack rot rr) (n + 1) = physical rot rr n := by
  have hrot : rot ≠ 0 := by omega
  have hn' : n < 8 * rot := by omega
  have hback : n + 1 + (rr + 8 * rot - 1) = n + rr + 8 * rot := by omega
  simp only [physical, turnedBack, hrot, hn, hn', if_true, if_false]
  rw [Nat.add_mod_mod, hback, Nat.add_mod_right]

/-! ## The pass that closes -/

theorem Regs.close_body (r : Regs) (l : Loop) (ls : List Loop) (hl : r.loops = l :: ls) :
    r.close (.body true) false =
      { r.advance true with loops := { l with count := l.count - 1, index := l.index + 1 } :: ls } := by
  unfold Regs.close
  rw [hl]
  rfl

theorem Regs.close_drain (r : Regs) (l : Loop) (ls : List Loop) (hl : r.loops = l :: ls) :
    r.close .drain false =
      { r.advance false with loops := { l with index := l.index + 1 } :: ls, epicnt := r.epicnt - 1 } := by
  unfold Regs.close
  rw [hl]
  rfl

/-- Settles O18: the ladder, the writes in flight and the rings each by their own lemma, and the two passes that advance. -/
theorem stageAdvance : Obligations.StageAdvance := by
  intro r f
  refine ⟨⟨_, _, _, _, r.advance_eq f, turnedBack_of_pos _ _, fun h => h ▸ turnedBack_zero _, turnedBack_of_pos _ _,
    fun h => h ▸ turnedBack_zero _, r.climb_p_below f, r.climb_p_foot f, r.climb_p_rung f, r.mem_climb_flights f⟩,
    fun n => ?_, fun n => ?_, fun l ls hl => ⟨r.close_body l ls hl, r.close_drain l ls hl⟩⟩
  · exact physical_turnedBack r.rotv r.rrbv n
  · exact physical_turnedBack r.rotw r.rrbw n

end Sys2Proof.Machine
end

section
/-! Division (R89): what the four forms deliver, in terms of the division of words and of their integers. -/

namespace Sys2Proof.Machine

open Claims

/-! ## A result in a k register -/

theorem ends_of_kResult {i : Instr} {s : State} {lat : Nat} {d : BitVec 5} {v : Word} (hi : exec i s = kResult s lat d v)
    (h : Issuing s) : Ends i s fun t => Writes s t 0 lat (.k d.toNat) (low64 v) :=
  ⟨s.writeK lat d v, hi, State.write_writes s lat (.k d.toNat) (low64 v) h⟩

/-! ## Quotients and remainders -/

@[simp] theorem divS_zero (a : Word) : divS a 0 = BitVec.allOnes 64 := if_pos rfl

@[simp] theorem divU_zero (a : Word) : divU a 0 = BitVec.allOnes 64 := if_pos rfl

@[simp] theorem remS_zero (a : Word) : remS a 0 = a := if_pos rfl

@[simp] theorem remU_zero (a : Word) : remU a 0 = a := if_pos rfl

theorem divS_of_ne_zero (a b : Word) (hb : b ≠ 0) : divS a b = a.sdiv b := by
  unfold divS
  rw [if_neg hb, ← BitVec.toInt_inj, BitVec.toInt_ofInt, BitVec.toInt_sdiv]

theorem divU_of_ne_zero (a b : Word) (hb : b ≠ 0) : divU a b = a / b := by
  unfold divU
  rw [if_neg hb, BitVec.udiv_def]

theorem remS_eq_srem (a b : Word) : remS a b = a.srem b := by
  unfold remS
  split
  · next hb => rw [hb, BitVec.ofNat_eq_ofNat, BitVec.srem_zero]
  · rw [← Int.tmod_def, ← BitVec.toInt_srem, BitVec.ofInt_toInt]

theorem remU_eq_umod (a b : Word) : remU a b = a % b := by
  unfold remU
  split
  · next hb => rw [hb, BitVec.ofNat_eq_ofNat, BitVec.umod_zero]
  · exact BitVec.umod_def.symm

/-- Where the quotient -2^63 / -1 is left out, the signed quotient fits its word. -/
theorem toInt_divS (a b : Word) (hb : b ≠ 0) (hfit : ¬ (a.toInt = -2 ^ 63 ∧ b.toInt = -1)) :
    (divS a b).toInt = a.toInt.tdiv b.toInt := by
  rw [divS_of_ne_zero a b hb]
  refine BitVec.toInt_sdiv_of_ne_or_ne a b ?_
  by_cases hmin : a = BitVec.intMin 64
  · refine .inr fun hneg => hfit ?_
    rw [hmin, hneg]
    decide
  · exact .inl hmin

theorem toInt_remS (a b : Word) : (remS a b).toInt = a.toInt - b.toInt * a.toInt.tdiv b.toInt := by
  rw [remS_eq_srem, BitVec.toInt_srem, Int.tmod_def]

theorem divS_min_neg_one (a b : Word) (ha : a.toInt = -2 ^ 63) (hb : b.toInt = -1) : divS a b = a := by
  have hne : b ≠ 0 := by
    rintro rfl
    exact absurd hb (by decide)
  rw [divS_of_ne_zero a b hne, ← BitVec.toInt_inj, BitVec.toInt_sdiv, ha, hb]
  decide

theorem remS_min_neg_one (a b : Word) (ha : a.toInt = -2 ^ 63) (hb : b.toInt = -1) : remS a b = 0 := by
  rw [← BitVec.toInt_inj, toInt_remS, ha, hb]
  decide

theorem toNat_divU (a b : Word) (hb : b ≠ 0) : (divU a b).toNat = a.toNat / b.toNat := by
  rw [divU_of_ne_zero a b hb, BitVec.toNat_udiv]

theorem toNat_remU (a b : Word) : (remU a b).toNat = a.toNat % b.toNat := by
  rw [remU_eq_umod, BitVec.toNat_umod]

/-! ## The dividend from quotient and remainder -/

theorem divS_mul_add_remS (a b : Word) : divS a b * b + remS a b = a := by
  by_cases hb : b = 0
  · rw [hb, remS_zero, BitVec.ofNat_eq_ofNat, BitVec.mul_zero, BitVec.zero_add]
  · have hq : divS a b = BitVec.ofInt 64 (a.toInt.tdiv b.toInt) := if_neg hb
    have hr : remS a b = BitVec.ofInt 64 (a.toInt.tmod b.toInt) := by
      rw [remS_eq_srem, ← BitVec.toInt_srem, BitVec.ofInt_toInt]
    calc divS a b * b + remS a b
        = BitVec.ofInt 64 (a.toInt.tdiv b.toInt * b.toInt + a.toInt.tmod b.toInt) := by
          rw [BitVec.ofInt_add, BitVec.ofInt_mul, BitVec.ofInt_toInt, hq, hr]
      _ = a := by rw [Int.tdiv_mul_add_tmod, BitVec.ofInt_toInt]

theorem divU_mul_add_remU (a b : Word) : divU a b * b + remU a b = a := by
  by_cases hb : b = 0
  · rw [hb, remU_zero, BitVec.ofNat_eq_ofNat, BitVec.mul_zero, BitVec.zero_add]
  · rw [divU_of_ne_zero a b hb, remU_eq_umod]
    apply BitVec.eq_of_toNat_eq
    rw [BitVec.toNat_add, BitVec.toNat_mul, BitVec.toNat_udiv, BitVec.toNat_umod, Nat.mod_add_mod, Nat.div_add_mod',
      Nat.mod_eq_of_lt a.isLt]

/-- Settles O2: the model's quotients and remainders, whose values and identities the lemmas above give. -/
theorem divisionForms : Obligations.DivisionForms := by
  rintro s d a b x y h rfl rfl
  refine ⟨divS (s.k a) (s.k b), remS (s.k a) (s.k b), divU (s.k a) (s.k b), remU (s.k a) (s.k b),
    ends_of_kResult rfl h, ends_of_kResult rfl h, ends_of_kResult rfl h, ends_of_kResult rfl h, ?_, ?_, ?_, ?_,
    (divS_mul_add_remS _ _).symm, (divU_mul_add_remU _ _).symm⟩
  · intro hy
    rw [hy]
    exact ⟨divS_zero _, divU_zero _, remS_zero _, remU_zero _⟩
  · exact fun hx hy => ⟨divS_min_neg_one _ _ hx hy, remS_min_neg_one _ _ hx hy⟩
  · exact fun hy hfit => ⟨toInt_divS _ _ hy hfit, toInt_remS _ _⟩
  · exact fun hy => ⟨toNat_divU _ _ hy, toNat_remU _ _⟩

end Sys2Proof.Machine
end
